-- ==== Sys2Proof/Word.lean ====
section
/-! DEFINITION. The byte and the byte string of 00_scope.md R10. The engine has no wider word: no
binary multi-byte value exists on the wire (20_memory.md R44). -/

namespace Sys2Proof

/-- A byte, 0x00..0xFF (R10). -/
abbrev Byte := BitVec 8

/-- A byte string, indexed from 0 in transmission order (R10, R43). -/
abbrev Bytes := List Byte

end Sys2Proof
end

