-- ==== Sys2Proof/Machine/Chars.lean ====
section
/-! DEFINITION. Character codes, byte classes and index notation: 00_scope.md R10 and R12,
30_encoding.md R58 and R59. The ASCII values are the spec's own general-knowledge item
(93_implementation_defined.md G1; log 16). -/

namespace Sys2Proof

/-- STX, 0x02 (R58). -/
def Chars.STX : Byte := 0x02
/-- ETX, 0x03 (R58). -/
def Chars.ETX : Byte := 0x03
/-- CR, 0x0D (R58). -/
def Chars.CR : Byte := 0x0D
/-- LF, 0x0A (R58). -/
def Chars.LF : Byte := 0x0A
/-- SP, 0x20 (R10, R58). -/
def Chars.SP : Byte := 0x20
/-- `+`, 0x2B (R58). -/
def Chars.plus : Byte := 0x2B
/-- `-`, 0x2D (R58). -/
def Chars.minus : Byte := 0x2D
/-- `.`, 0x2E, the decimal point of the range grammar (41_classify_measure.md R122). -/
def Chars.dot : Byte := 0x2E

/-- `SP^n`: `n` space bytes (R10). -/
def spaces (n : Nat) : Bytes := List.replicate n Chars.SP

/-- `s[i..j]`: the substring from index `i` to index `j`, both inclusive (R10). -/
def slice (s : Bytes) (i j : Nat) : Bytes := (s.drop i).take (j + 1 - i)

/-- The class PRINTABLE = 0x20..0x7E (R59). -/
def isPrintable (b : Byte) : Bool := decide (0x20 ≤ b.toNat ∧ b.toNat ≤ 0x7E)

/-- `digit(b)`: the value of a byte of the class DIGIT = 0x30..0x39, none outside it (R12, R59). -/
def digit? (b : Byte) : Option (Fin 10) :=
  if h : 0x30 ≤ b.toNat ∧ b.toNat ≤ 0x39 then some ⟨b.toNat - 0x30, by omega⟩ else none

/-- `hexval(b)`: the value of a byte of the class HEXDIGIT, either letter case, none outside it (R59). -/
def hexval? (b : Byte) : Option (Fin 16) :=
  if h : 0x30 ≤ b.toNat ∧ b.toNat ≤ 0x39 then some ⟨b.toNat - 0x30, by omega⟩
  else if h : 0x41 ≤ b.toNat ∧ b.toNat ≤ 0x46 then some ⟨b.toNat - 0x37, by omega⟩
  else if h : 0x61 ≤ b.toNat ∧ b.toNat ≤ 0x66 then some ⟨b.toNat - 0x57, by omega⟩
  else none

/-- The ASCII byte of a decimal digit (R58, R60). -/
def digitByte (d : Nat) : Byte := BitVec.ofNat 8 (0x30 + d)

/-- The ASCII byte of a hexadecimal digit, letters in lower case (R12, R61). -/
def hexByte (d : Nat) : Byte := BitVec.ofNat 8 (if d < 10 then 0x30 + d else 0x57 + d)

/-- `hex2(v)`: two lowercase hexadecimal digits, high nibble first, zero-padded (R12). -/
def hex2 (v : Byte) : Bytes := [hexByte (v.toNat / 16), hexByte (v.toNat % 16)]

end Sys2Proof
end

