-- ==== Sys2Proof/Machine/Errors.lean ====
section
/-! DEFINITION. The closed error enumeration of 60_exceptions.md: kinds (R170), reasons (R171, R173,
R177), the info record (R180). -/

namespace Sys2Proof

/-- The nine error kinds of R170. -/
inductive ErrorKind
  | formatError | checksumError | protocolError | rangeError | powerHeadOff | eepromFault
  | transportError | illegalState | illegalOp
  deriving DecidableEq, Repr

/-- The twelve FormatError reasons of R171. -/
inductive FormatReason
  | badLength | headOutOfRange | badParamLength | badCommandLength | nonPrintable | nonDigitHead
  | nonDigitMeasurement | unknownStatus | badRangeSyntax | badFraming | tooManyHeads | badOperand
  deriving DecidableEq, Repr

/-- The three ProtocolError reasons of R173. -/
inductive ProtocolReason
  | headMismatch | commandMismatch | parameterNotEmpty
  deriving DecidableEq, Repr

/-- The four TransportError reasons of R177. -/
inductive TransportReason
  | sendFailed | shortWrite | overCount | receiveFailed
  deriving DecidableEq, Repr

/-- The two EepromFault variants of 41_classify_measure.md R114. -/
inductive EepromVariant
  | one | two
  deriving DecidableEq, Repr

/-- What a `raise` names: the kind, with the reason or the variant that kind carries (R171 to R177). -/
inductive Raised
  | format (r : FormatReason)
  | checksum
  | protocol (r : ProtocolReason)
  | range
  | powerHeadOff
  | eeprom (v : EepromVariant)
  | transport (r : TransportReason)
  | illegalState
  | illegalOp
  deriving DecidableEq, Repr

/-- The info record of an `Err` (R77, R180): the reason code, the EepromFault variant, the index in the
head list and the head addressed. -/
structure ErrInfo where
  reason : Nat
  variant : Nat
  index : Nat
  head : Byte
  deriving DecidableEq, Repr

/-- The numeric code of an error kind; 0 is reserved for "no error" (R170). -/
def ErrorKind.code : ErrorKind → Nat
  | .formatError => 1
  | .checksumError => 2
  | .protocolError => 3
  | .rangeError => 4
  | .powerHeadOff => 5
  | .eepromFault => 6
  | .transportError => 7
  | .illegalState => 8
  | .illegalOp => 9

/-- The numeric FormatError reason (R171). -/
def FormatReason.code : FormatReason → Nat
  | .badLength => 1
  | .headOutOfRange => 2
  | .badParamLength => 3
  | .badCommandLength => 4
  | .nonPrintable => 5
  | .nonDigitHead => 6
  | .nonDigitMeasurement => 7
  | .unknownStatus => 8
  | .badRangeSyntax => 9
  | .badFraming => 10
  | .tooManyHeads => 11
  | .badOperand => 12

/-- The numeric ProtocolError reason (R173). -/
def ProtocolReason.code : ProtocolReason → Nat
  | .headMismatch => 1
  | .commandMismatch => 2
  | .parameterNotEmpty => 3

/-- The numeric TransportError reason (R177). -/
def TransportReason.code : TransportReason → Nat
  | .sendFailed => 1
  | .shortWrite => 2
  | .overCount => 3
  | .receiveFailed => 4

/-- The variant number of an EepromFault (R114). -/
def EepromVariant.number : EepromVariant → Nat
  | .one => 1
  | .two => 2

/-- The kind of what was raised (R170). -/
def Raised.kind : Raised → ErrorKind
  | .format _ => .formatError
  | .checksum => .checksumError
  | .protocol _ => .protocolError
  | .range => .rangeError
  | .powerHeadOff => .powerHeadOff
  | .eeprom _ => .eepromFault
  | .transport _ => .transportError
  | .illegalState => .illegalState
  | .illegalOp => .illegalOp

/-- `reason` of the info record: from R171, R173 or R177, and 0 where none applies (R180 step 1). -/
def Raised.reason : Raised → Nat
  | .format r => r.code
  | .protocol r => r.code
  | .transport r => r.code
  | _ => 0

/-- `variant` of the info record: 1 or 2 for EepromFault and 0 otherwise (R180 step 1). -/
def Raised.variant : Raised → Nat
  | .eeprom v => v.number
  | _ => 0

/-- The info record of an error raised at position `index` of the head list for head `head` (R180 step 1). -/
def Raised.info (e : Raised) (index : Nat) (head : Byte) : ErrInfo :=
  { reason := e.reason, variant := e.variant, index := index, head := head }

/-- The kinds that force the session to Disconnected (R180 step 2, R181). -/
def ErrorKind.fatal : ErrorKind → Bool
  | .powerHeadOff => true
  | .eepromFault => true
  | .transportError => true
  | _ => false

/-- `head` of the info record where no frame head exists: 0xFF (R180 step 1). -/
def noHead : Byte := 0xFF

end Sys2Proof
end

