-- ==== Sys2Proof/Config.lean ====
section
/-! DEFINITION. The implementation parameters of 00_scope.md R9 and the model's free values. No value is
chosen here: `Config.params` and `Config.pickReason` are opaque constants. Profile P0 is no fact
(93_implementation_defined.md part 3) and stands only in the tests. -/

namespace Sys2Proof

/-- The parameters of R9, which "A model takes ... as an argument" (logs 1, 13, 18, 20). -/
structure Params where
  /-- CMD_MODE, the mode-switch command code (D15). -/
  cmdMode : Bytes
  /-- CMD_READ (D15). -/
  cmdRead : Bytes
  /-- CMD_HOLD (D15). -/
  cmdHold : Bytes
  /-- CMD_CLEAR (D15). -/
  cmdClear : Bytes
  /-- MODE_HEAD (D16). -/
  modeHead : Byte
  /-- HOLD_HEAD (D16). -/
  holdHead : Byte
  /-- PARAM_REMOTE (D17). -/
  paramRemote : Bytes
  /-- HOLD_PARAM_ON (D17). -/
  holdParamOn : Bytes
  /-- HOLD_PARAM_OFF (D17). -/
  holdParamOff : Bytes
  /-- CLEAR_PARAM (D17). -/
  clearParam : Bytes
  /-- HOLD_FLAG_ON (D17). -/
  holdFlagOn : Byte
  /-- HOLD_FLAG_OFF (D17). -/
  holdFlagOff : Byte
  /-- CCF_FLAG_ON (D17). -/
  ccfFlagOn : Byte
  /-- CCF_FLAG_OFF (D17). -/
  ccfFlagOff : Byte
  /-- RANGE_CODE_AUTO (D17). -/
  rangeCodeAuto : Byte
  /-- RANGE_CODE_1 (D17). -/
  rangeCode1 : Byte
  /-- RANGE_CODE_2 (D17). -/
  rangeCode2 : Byte
  /-- RANGE_CODE_3 (D17). -/
  rangeCode3 : Byte
  /-- RANGE_CODE_4 (D17). -/
  rangeCode4 : Byte
  /-- RANGE_CODE_5 (D17). -/
  rangeCode5 : Byte
  /-- READ_PAD (D17). -/
  readPad : Byte
  /-- HOLD_EXPECTS_REPLY, decided false and kept as a parameter (D22). -/
  holdExpectsReply : Bool
  /-- CHECK_FRAMING, decided false and kept as a parameter (D7). -/
  checkFraming : Bool
  /-- MAX_HEADS (D26). -/
  maxHeads : Nat
  /-- MAX_BCC_SPAN (D11). -/
  maxBccSpan : Nat
  /-- MAX_FRAME_IN (D3). -/
  maxFrameIn : Nat
  /-- MAX_RANGE_LEN (D14). -/
  maxRangeLen : Nat
  /-- SETTLE_MODE, in time units of the platform; no rule depends on it (R212, D24). -/
  settleMode : Nat
  /-- SETTLE_READ, in time units of the platform; no rule depends on it (R212, D24). -/
  settleRead : Nat
  /-- SETTLE_HOLD, in time units of the platform; no rule depends on it (R212, D24). -/
  settleHold : Nat
  deriving DecidableEq, Repr, Inhabited

/-- A byte string of `n` PRINTABLE bytes, the type of a command code (2) or a parameter string (4) in R9. -/
def isText (n : Nat) (s : Bytes) : Bool := s.length == n && s.all isPrintable

/-- The types of R9, which a model takes as a premise (42_session.md R147). The upper bound 255 of the
MAX parameters is 30_encoding.md R74's. -/
def Params.wellTyped (p : Params) : Bool :=
  isText 2 p.cmdMode && isText 2 p.cmdRead && isText 2 p.cmdHold && isText 2 p.cmdClear
  && decide (p.modeHead.toNat ≤ 99) && decide (p.holdHead.toNat ≤ 99)
  && isText 4 p.paramRemote && isText 4 p.holdParamOn && isText 4 p.holdParamOff
  && isText 4 p.clearParam && decide (p.holdParamOn ≠ p.holdParamOff)
  && [p.holdFlagOn, p.holdFlagOff, p.ccfFlagOn, p.ccfFlagOff, p.rangeCodeAuto, p.rangeCode1,
      p.rangeCode2, p.rangeCode3, p.rangeCode4, p.rangeCode5, p.readPad].all isPrintable
  && decide (p.holdFlagOn ≠ p.holdFlagOff) && decide (p.ccfFlagOn ≠ p.ccfFlagOff)
  && decide ([p.rangeCodeAuto, p.rangeCode1, p.rangeCode2, p.rangeCode3, p.rangeCode4,
      p.rangeCode5].Nodup)
  && decide (1 ≤ p.maxHeads ∧ p.maxHeads ≤ 255)
  && decide (27 ≤ p.maxBccSpan ∧ p.maxBccSpan ≤ 255)
  && decide (32 ≤ p.maxFrameIn ∧ p.maxFrameIn ≤ 255)
  && decide (8 ≤ p.maxRangeLen ∧ p.maxRangeLen ≤ 255)

/-- The parameter set of the machine that `State.reset` starts: no value is known (R9; log 1). -/
opaque Config.params : Params

/-- FREE VALUE: which of several applicable FormatError reasons a request with several format defects
reports. R74 says which reasons apply and no rule ranks them (log 10). -/
opaque Config.pickReason : Bytes → Nat

end Sys2Proof
end

