-- ==== Sys2Proof/Syntax.lean ====
section
/-! DEFINITION. The host operations of 30_encoding.md R76, one constructor per row of
spec/opcode_table.json, operands in the order of that rule. -/

namespace Sys2Proof

/-- A host operation with its operands (R2, R76). A `u8` is a byte, a `str` a byte string, a `list` a
list of bytes (R74). -/
inductive Instr
  /-- ATTACH, opcode 0x01 (R134). -/
  | attach
  /-- DETACH, opcode 0x02 (R135). -/
  | detach
  /-- READ_STATE, opcode 0x03 (R136). -/
  | readState
  /-- ENTER_REMOTE, opcode 0x10 (R137). -/
  | enterRemote
  /-- CONFIGURE_AND_READ, opcode 0x11 (R139). -/
  | configureAndRead (heads : List Byte) (hold ccf : Bool) (range : Bytes)
  /-- SET_HOLD, opcode 0x12 (R142). -/
  | setHold (flag : Bool)
  /-- CLEAR_INTEGRATED, opcode 0x13 (R143). -/
  | clearIntegrated (head : Byte)
  /-- COMPUTE_BCC, opcode 0x20 (R91). -/
  | computeBcc (span : Bytes)
  /-- ENCODE_SHORT, opcode 0x21 (R92). -/
  | encodeShort (head : Byte) (command parameter : Bytes)
  /-- DECODE_SHORT, opcode 0x22 (R94). -/
  | decodeShort (frame : Bytes)
  /-- DECODE_LONG, opcode 0x23 (R98). -/
  | decodeLong (frame : Bytes)
  /-- CLASSIFY_STATUS, opcode 0x24 (R110). -/
  | classifyStatus (status : Bytes)
  /-- DECODE_MEASUREMENT, opcode 0x25 (R116). -/
  | decodeMeasurement (field : Bytes)
  /-- SELECT_RANGE, opcode 0x26 (R121). -/
  | selectRange (range : Bytes)
  /-- PACK_READ_PARAM, opcode 0x27 (R125). -/
  | packReadParam (hold ccf : Bool) (range : Bytes)
  deriving DecidableEq, Repr

end Sys2Proof
end

