-- ==== Sys2Proof/Machine/State.lean ====
section
/-! DEFINITION. The engine's state, 10_state.md, as plain data, with the interfaces of the engine's three
other agents (00_scope.md R7), and the machine after reset (70_reset_and_hazards.md R200). -/

namespace Sys2Proof.Machine

/-- LIFECYCLE (R16). -/
inductive Lifecycle
  | disconnected | rawMode | remoteMode
  deriving DecidableEq, Repr

/-- HELD, the Running/Held sub-state (R18). -/
inductive HeldState
  | unknown | running | held
  deriving DecidableEq, Repr

/-- The kinds of settle interval (R20, R133). -/
inductive SettleKind
  | mode | read | hold
  deriving DecidableEq, Repr

/-- The two lengths a `Receive` asks for: a short reply of 14 bytes, a long reply of 32 (R20, R132). -/
inductive ReplyKind
  | short | long
  deriving DecidableEq, Repr

/-- PHASE, the engine's sequencing position (R20). -/
inductive Phase
  | idle
  | awaitSend
  | awaitRecv (n : ReplyKind)
  | awaitSettle (kind : SettleKind)
  deriving DecidableEq, Repr

/-- A `Reading` (R24): the sign, the mantissa 0..9999 and the exponent of an exact decimal, or absent. -/
inductive Reading
  | absent
  | present (neg : Bool) (mantissa : Fin 10000) (exp : Int)
  deriving DecidableEq, Repr

/-- The error part of a StatusClass (R25). -/
inductive StatusError
  | ok | overRange | powerHeadOff | eepromFault (variant : EepromVariant)
  deriving DecidableEq, Repr

/-- The battery indication (R25, R31). -/
inductive Battery
  | nominal | lowBattery
  deriving DecidableEq, Repr

/-- A StatusClass, the pair `(err, battery)` (R25). -/
structure StatusClass where
  err : StatusError
  battery : Battery
  deriving DecidableEq, Repr

/-- The status of a record: a fatal status never yields one (R27). -/
inductive RecordStatus
  | ok | overRange
  deriving DecidableEq, Repr

/-- A `HeadResult`, one record of CONFIGURE_AND_READ (R27). -/
structure HeadResult where
  index : Nat
  head : Fin 100
  status : RecordStatus
  battery : Battery
  d1 : Reading
  d2 : Reading
  d3 : Reading
  deriving DecidableEq, Repr

/-- What the short-frame decoder returns (40_frame_codec.md R94). -/
structure ShortFields where
  head : Fin 100
  command : Bytes
  parameter : Bytes
  deriving DecidableEq, Repr

/-- What the long-frame decoder returns (R98). -/
structure LongFields where
  head : Fin 100
  command : Bytes
  status : Bytes
  d1 : Reading
  d2 : Reading
  d3 : Reading
  deriving DecidableEq, Repr

/-- The result of an operation that ends in `Ok`, by the result column of 30_encoding.md R76. -/
inductive Result
  /-- no result: ATTACH, DETACH and the device operations -/
  | none
  /-- the STATE byte of READ_STATE -/
  | state (b : Byte)
  /-- COMPUTE_BCC -/
  | bcc (value : Byte) (text : Bytes)
  /-- ENCODE_SHORT -/
  | frame (f : Bytes)
  /-- DECODE_SHORT -/
  | short (fields : ShortFields)
  /-- DECODE_LONG -/
  | long (fields : LongFields)
  /-- CLASSIFY_STATUS -/
  | status (c : StatusClass)
  /-- DECODE_MEASUREMENT -/
  | reading (r : Reading)
  /-- SELECT_RANGE -/
  | rangeCode (rc : Byte)
  /-- PACK_READ_PARAM -/
  | parameter (p : Bytes)
  deriving DecidableEq, Repr

/-- The outcome of an operation, `Ok(result)` or `Err(kind, info)` (00_scope.md R13, R77). -/
inductive OpOutcome
  | ok (result : Result)
  | err (kind : ErrorKind) (info : ErrInfo)
  deriving DecidableEq, Repr

/-- The transport's answer to a `Send`: a count, any integer, or an error (R131, R189). -/
inductive SendAnswer
  | count (n : Int)
  | error
  deriving DecidableEq, Repr

/-- The transport's answer to a `Receive`: bytes, of any length, or an error (R132, R189). -/
inductive RecvAnswer
  | bytes (b : Bytes)
  | error
  deriving DecidableEq, Repr

/-- An error that waits for its owed settle before it is delivered (60_exceptions.md R180, log 14). -/
structure Failure where
  kind : ErrorKind
  info : ErrInfo
  deriving DecidableEq, Repr

/-- CUR, the context of the operation in progress (R21). -/
structure OpContext where
  /-- the latched request -/
  request : Instr
  /-- `K`, the index of the head now served; 0 for an operation without a head list (log 15) -/
  index : Nat
  /-- `RC`, the range code; 0 for an operation without a range (log 15) -/
  rangeCode : Byte
  /-- the head of the frame last sent -/
  sentHead : Byte
  /-- the command of the frame last sent -/
  sentCommand : Bytes
  /-- `owe`, the settle mark (42_session.md R133) -/
  owe : Option SettleKind
  /-- the error to deliver after the settle, if the operation has failed (R180) -/
  failure : Option Failure
  deriving DecidableEq, Repr

/-- Why a step stops. Both reasons stand only for states that the invariants of 10_state.md R33, or the
operations' own sequences (R137 to R143), rule out; no run from reset reaches one (log 12). -/
inductive Fault
  /-- PHASE is not Idle and CUR is none, against R33 (I1). Raised by every device operation's meaning
  and by `step`. Safe: no rule says what such an engine does. -/
  | noOperation
  /-- The operation in CUR never waits for what PHASE names (a reply of the other length, R72; a settle
  of another kind, R145), or has no waits at all. Raised
  by the device operations' meanings and by `step`. Safe: no rule says what such an engine does. -/
  | noSuchWait
  deriving DecidableEq, Repr

/-- Why an operation has no meaning. -/
inductive Refusal
  /-- The operation has no meaning in this model yet. Raised by `exec`'s arms only; no arm uses it.
  Safe. -/
  | notModelled (mnemonic : String)
  deriving DecidableEq, Repr

/-- The engine state of R15, then the model's own fields: the parameter set (R9, log 1) and the
interfaces to host and transport (R7, logs 2, 5, 6, 7). -/
structure State where
  /-- LIFECYCLE (R16) -/
  lifecycle : Lifecycle
  /-- HELD (R18) -/
  held : HeldState
  /-- PHASE (R20) -/
  phase : Phase
  /-- CUR (R21) -/
  cur : Option OpContext
  /-- SETTLE_PENDING (R30) -/
  settlePending : Bool
  /-- TXBUF (R22; log 11) -/
  txBuf : Option Bytes
  /-- RXBUF (R23; log 11) -/
  rxBuf : Option Bytes
  /-- RESULTS (R26) -/
  results : List HeadResult
  /-- the outcome last delivered to the host (R13, R77; log 6) -/
  outcome : Option OpOutcome
  /-- the parameters of R9 (log 1) -/
  params : Params
  /-- the reset input (R201, D29; log 5) -/
  resetInput : Bool
  /-- the requests the host has issued and the engine has not yet accepted, oldest first (R54; log 2) -/
  hostPort : List Bytes
  /-- the transport's answers to sends, in the order it gives them (R189; log 2) -/
  sendAnswers : List SendAnswer
  /-- the transport's answers to receives, in the order it gives them (R189; log 2) -/
  recvAnswers : List RecvAnswer
  /-- the TX stream: every byte handed to the transport, in order (R40; log 7) -/
  txStream : Bytes
  deriving DecidableEq, Repr

/-- The machine right after reset: the table of R34, which R200 applies; the model's own fields as logs
1, 2, 5, 6 and 7 say. -/
def State.reset : State where
  lifecycle := .disconnected
  held := .unknown
  phase := .idle
  cur := none
  settlePending := false
  txBuf := none
  rxBuf := none
  results := []
  outcome := none
  params := Config.params
  resetInput := false
  hostPort := []
  sendAnswers := []
  recvAnswers := []
  txStream := []

end Sys2Proof.Machine
end

