-- ==== Sys2Proof/Machine/Flags.lean ====
section
/-! DEFINITION. The flags of 10_state.md R31: the persistent flag HELD and its codes, the STATE byte of
R19, and the two per-result indications, which the status word's two examined positions give
(41_classify_measure.md R111, R112). The engine has no condition codes. -/

namespace Sys2Proof.Machine

/-- LIFECYCLE's code in STATE[1:0] (R19). -/
def Lifecycle.code : Lifecycle → Nat
  | .disconnected => 0
  | .rawMode => 1
  | .remoteMode => 2

/-- HELD's code in STATE[3:2] (R19). -/
def HeldState.code : HeldState → Nat
  | .unknown => 0
  | .running => 1
  | .held => 2

/-- The STATE byte: `zext_8(HELDcode << 2 | LIFECYCLEcode)` (R19, 42_session.md R136). -/
def State.stateByte (s : State) : Byte :=
  (BitVec.ofNat 8 s.held.code <<< 2) ||| BitVec.ofNat 8 s.lifecycle.code

/-- HELD after a successful SET_HOLD: flag true gives Held and flag false gives Running (R142). -/
def heldOf (flag : Bool) : HeldState := if flag then .held else .running

/-- The error position `s[1]`, R111's complete table. -/
def errorPosition (b : Byte) : Option StatusError :=
  match b.toNat with
  | 0x20 => some .ok
  | 0x37 => some .ok
  | 0x35 => some .overRange
  | 0x31 => some .powerHeadOff
  | 0x32 => some (.eepromFault .one)
  | 0x33 => some (.eepromFault .two)
  | _ => none

/-- The battery position `s[3]`, R112's complete table. -/
def batteryPosition (b : Byte) : Option Battery :=
  match b.toNat with
  | 0x30 => some .nominal
  | 0x32 => some .nominal
  | 0x31 => some .lowBattery
  | 0x33 => some .lowBattery
  | _ => none

end Sys2Proof.Machine
end

