-- ==== Sys2Proof/Machine/Operands.lean ====
section
/-! DEFINITION. The operand and field forms: the head field (30_encoding.md R60), the decimal literal of
a range operand (41_classify_measure.md R122), the value of a reading (00_scope.md R12). -/

namespace Sys2Proof.Machine

/-- The head field's two decimal digits, zero-padded (R60). -/
def encodeHead (h : Byte) : Bytes := [digitByte (h.toNat / 10), digitByte (h.toNat % 10)]

/-- The head of a received head field: two DIGIT bytes, no sign, no space (R60). -/
def decodeHead (a b : Byte) : Option (Fin 100) :=
  match digit? a, digit? b with
  | some x, some y => some ⟨10 * x.val + y.val, by omega⟩
  | _, _ => none

/-- The mantissa of four decimal digits, most significant first (R44, P-MEAS of R116). -/
def mantissaOf (a b c d : Fin 10) : Fin 10000 :=
  ⟨1000 * a.val + 100 * b.val + 10 * c.val + d.val, by omega⟩

/-- The exponent of an exponent digit: the digit less EXP_BIAS 4 (R8, R67). -/
def exponentOf (x : Fin 10) : Int := (x.val : Int) - 4

/-- The exact rational of a reading, `(-1)^neg * mantissa * 10^exp`; none when absent (R12, R24). -/
def Reading.value : Reading → Option ℚ
  | .absent => none
  | .present neg mantissa exp =>
    some ((if neg then -1 else 1) * (mantissa.val : ℚ) * (10 : ℚ) ^ exp)

/-- The value of a decimal literal: sign, all its digits as one number, and how many of them stand after
the point. -/
structure Decimal where
  neg : Bool
  digits : Nat
  scale : Nat
  deriving DecidableEq, Repr

/-- The exact rational that a literal spells (R122). -/
def Decimal.value (d : Decimal) : ℚ :=
  (if d.neg then -1 else 1) * (d.digits : ℚ) / (10 : ℚ) ^ d.scale

/-- The number that a run of DIGIT bytes spells, most significant first; none if a byte is no digit. -/
def digitsValue : Nat → Bytes → Option Nat
  | acc, [] => some acc
  | acc, b :: rest =>
    match digit? b with
    | some d => digitsValue (10 * acc + d.val) rest
    | none => none

/-- The bytes before the first point, and the bytes after it if there is a point. -/
def splitPoint : Bytes → Bytes × Option Bytes
  | [] => ([], none)
  | b :: rest =>
    if b = Chars.dot then ([], some rest)
    else
      let q := splitPoint rest
      (b :: q.1, q.2)

/-- An unsigned literal: `digits ( "." digits? )?` or `"." digits` (R122). -/
def parseUnsigned (neg : Bool) (s : Bytes) : Option Decimal :=
  match splitPoint s with
  | (whole, none) =>
    if whole = [] then none
    else
      match digitsValue 0 whole with
      | some v => some ⟨neg, v, 0⟩
      | none => none
  | (whole, some frac) =>
    if whole = [] ∧ frac = [] then none
    else
      match digitsValue 0 (whole ++ frac) with
      | some v => some ⟨neg, v, frac.length⟩
      | none => none

/-- `parseDecimal`: the grammar of R122, none outside it. -/
def parseDecimal (s : Bytes) : Option Decimal :=
  match s with
  | [] => none
  | b :: rest =>
    if b = Chars.plus then parseUnsigned false rest
    else if b = Chars.minus then parseUnsigned true rest
    else parseUnsigned false s

/-- `v < 0`, on exact values: a negative zero is not below 0 (R121, R123). -/
def Decimal.isNegative (d : Decimal) : Bool := d.neg && decide (d.digits ≠ 0)

/-- `v <= hundredths / 100` for a value that is not negative, on exact values (R123). -/
def Decimal.atMostHundredths (d : Decimal) (hundredths : Nat) : Bool :=
  decide (100 * d.digits ≤ hundredths * 10 ^ d.scale)

end Sys2Proof.Machine
end

