-- ==== Sys2Proof/Machine/Ops.lean ====
section
/-! DEFINITION. The shared operations over the engine's state: acceptance, the exchange primitives of
42_session.md R131 to R133, `Emit` and `complete` of 00_scope.md R11, and error entry, 60_exceptions.md
R180, as one operation. There is no return-from-error operation (R185). -/

namespace Sys2Proof.Machine

/-- Acceptance of a new request: RESULTS is set to the empty list (R26). The outcome of the request
before it is gone from the interface (log 6); no operation is in progress (R54). -/
def State.accept (s : State) : State := { s with results := [], outcome := none, cur := none }

/-- Delivery of an outcome: `PHASE <- Idle` and `CUR <- none` (R180 step 4). -/
def State.deliver (o : OpOutcome) (s : State) : State :=
  { s with outcome := some o, phase := .idle, cur := none }

/-- `complete(result)`: end the operation successfully (R11, R13). -/
def State.complete (r : Result) (s : State) : State := s.deliver (.ok r)

/-- Entry to Disconnected: LIFECYCLE, HELD and SETTLE_PENDING (R17, R180 step 2). -/
def State.disconnect (s : State) : State :=
  { s with lifecycle := .disconnected, held := .unknown, settlePending := false }

/-- `Settle(kind)` up to its step boundary (P-SETTLE of R133). -/
def State.settle (kind : SettleKind) (s : State) : State :=
  { s with settlePending := true, phase := .awaitSettle kind }

/-- ERROR ENTRY (R180): build the info; a fatal kind forces Disconnected and is delivered at once;
another kind waits for the owed settle if there is one, and is delivered otherwise. RESULTS is not
touched. -/
def State.raise (e : Raised) (index : Nat) (head : Byte) (s : State) : State :=
  let info := e.info index head
  if e.kind.fatal then s.disconnect.deliver (.err e.kind info)
  else
    match s.cur with
    | none => s.deliver (.err e.kind info)
    | some c =>
      match c.owe with
      | none => s.deliver (.err e.kind info)
      | some kind => { s with cur := some { c with failure := some ⟨e.kind, info⟩ } }.settle kind

/-- An operation that answers at once: `complete` or `raise` with no frame head (R180 step 1). -/
def State.answer (r : Except Raised Result) (s : State) : State :=
  match r with
  | .ok v => s.complete v
  | .error e => s.raise e 0 noHead

/-- `Send(f)` up to its step boundary (P-SEND of R131): TXBUF and PHASE are written and the frame is
handed to the transport in index order (R43). -/
def State.send (f : Bytes) (s : State) : State :=
  { s with txBuf := some f, phase := .awaitSend, txStream := s.txStream ++ f }

/-- `Receive(n)` up to its step boundary (P-RECEIVE of R132). -/
def State.receive (n : ReplyKind) (s : State) : State := { s with phase := .awaitRecv n }

/-- `Emit(r)`: append a record to RESULTS (R11, R26). -/
def State.emit (r : HeadResult) (s : State) : State := { s with results := s.results ++ [r] }

/-- `owe_settle(kind)`: the settle mark of the operation in progress (R133). -/
def State.oweSettle (kind : SettleKind) (s : State) : State :=
  { s with cur := s.cur.map fun c => { c with owe := some kind } }

/-- The context of an operation whose frame to `head` with code `command` is sent (R21). -/
def frameContext (request : Instr) (index : Nat) (rangeCode head : Byte) (command : Bytes) :
    OpContext :=
  { request := request, index := index, rangeCode := rangeCode, sentHead := head,
    sentCommand := command, owe := none, failure := none }

/-- Begin an exchange: latch the context in CUR and `Send` the encoded frame; an error of the encoder
ends the operation before its `Send` (40_frame_codec.md R93) with the index and head of R180. -/
def State.exchange (c : OpContext) (frame : Except Raised Bytes) (s : State) : State :=
  match frame with
  | .error e => s.raise e c.index c.sentHead
  | .ok f => { s with cur := some c }.send f

/-- The number of bytes of a reply: SHORT_LEN 14, LONG_LEN 32 (00_scope.md R8). -/
def ReplyKind.length : ReplyKind → Nat
  | .short => 14
  | .long => 32

/-- Judging the answer to a `Send`: 14 is success (none), everything else a TransportError reason
(R131 step 4). -/
def judgeSend : SendAnswer → Option TransportReason
  | .error => some .sendFailed
  | .count n =>
    if n < 0 then some .sendFailed
    else if n < 14 then some .shortWrite
    else if n > 14 then some .overCount
    else none

/-- Judging the answer to `Receive(n)`: exactly `n` bytes is success, everything else ReceiveFailed
(R132 steps 3 to 5). -/
def judgeReceive (n : ReplyKind) : RecvAnswer → Option Bytes
  | .error => none
  | .bytes b => if b.length = n.length then some b else none

/-- The step that ends a `Send`. Without an answer the engine waits, its state as it is (R206, log 3).
A failed send is a TransportError for the frame's index and head; after a good one the operation goes on
with `next`. -/
def State.onSendAnswer (next : OpContext → State → State) (s : State) :
    Host.Outcome State Fault Refusal :=
  match s.cur with
  | none => .fault .noOperation
  | some c =>
    match s.sendAnswers with
    | [] => .next s
    | a :: rest =>
      match judgeSend a with
      | some reason =>
        .next ({ s with sendAnswers := rest }.raise (.transport reason) c.index c.sentHead)
      | none => .next (next c { s with sendAnswers := rest })

/-- The step that ends a `Receive(n)`. Without an answer the engine waits (R132, R206, log 3). A good
reply is stored in RXBUF and the operation goes on with `next`. -/
def State.onReceiveAnswer (n : ReplyKind) (next : OpContext → Bytes → State → State) (s : State) :
    Host.Outcome State Fault Refusal :=
  match s.cur with
  | none => .fault .noOperation
  | some c =>
    match s.recvAnswers with
    | [] => .next s
    | a :: rest =>
      match judgeReceive n a with
      | none =>
        .next ({ s with recvAnswers := rest }.raise (.transport .receiveFailed) c.index c.sentHead)
      | some b => .next (next c b { s with recvAnswers := rest, rxBuf := some b })

/-- The settle timer's `elapsed(kind)` (R133 step 3, R190; log 4): SETTLE_PENDING and the settle mark are
cleared. Then a failed operation delivers its error (R180 step 4); another goes on with `next`. -/
def State.onElapsed (next : OpContext → State → State) (s : State) :
    Host.Outcome State Fault Refusal :=
  match s.cur with
  | none => .fault .noOperation
  | some c =>
    match c.failure with
    | some f =>
      .next ({ s with settlePending := false, cur := some { c with owe := none } }.deliver
        (.err f.kind f.info))
    | none =>
      .next (next c { s with settlePending := false, cur := some { c with owe := none } })

/-- Reset, taken in any PHASE (R200, R201): the table of R34. The input line is served; the transport,
the requests not yet accepted, what was sent and the parameters are outside the engine's reset (log 5). -/
def State.applyReset (s : State) : State :=
  { s with
    lifecycle := .disconnected, held := .unknown, phase := .idle, cur := none,
    settlePending := false, txBuf := none, rxBuf := none, results := [], outcome := none,
    resetInput := false }

end Sys2Proof.Machine
end

