-- ==== Sys2Proof/Machine/Classify.lean ====
section
/-! DEFINITION. The Status Classifier, the Measurement Decoder and range selection,
41_classify_measure.md, and the four operations that expose them. -/

namespace Sys2Proof.Machine

/-- `classifyStatus` (P-CLASSIFY of R110). Positions 0 and 2 are ignored (R66). -/
def classifyStatus (s : Bytes) : Except Raised StatusClass :=
  match s with
  | [_, e, _, b] =>
    match errorPosition e with
    | none => .error (.format .unknownStatus)
    | some err =>
      match batteryPosition b with
      | none => .error (.format .unknownStatus)
      | some battery => .ok ⟨err, battery⟩
  | _ => .error (.format .badLength)

/-- `decodeMeasurement` (P-MEAS of R116): exactly `SP^6` is Absent (R117), only `-` negates (R118). -/
def decodeMeasurement (m : Bytes) : Except Raised Reading :=
  match m with
  | [sign, a, b, c, d, x] =>
    if m = spaces 6 then .ok .absent
    else
      match digit? a, digit? b, digit? c, digit? d, digit? x with
      | some va, some vb, some vc, some vd, some vx =>
        .ok (.present (decide (sign = Chars.minus)) (mantissaOf va vb vc vd) (exponentOf vx))
      | _, _, _, _, _ => .error (.format .nonDigitMeasurement)
  | _ => .error (.format .badLength)

/-- The bytes of `"auto"`, lower case only (R122). -/
def autoText : Bytes := [0x61, 0x75, 0x74, 0x6F]

/-- The range code of a decimal value: the bands of R73 and R121, each upper bound inclusive (R123). -/
def bandCode (p : Params) (v : Decimal) : Except Raised Byte :=
  if v.isNegative then .error .range
  else if v.atMostHundredths 2999 then .ok p.rangeCode1
  else if v.atMostHundredths 29990 then .ok p.rangeCode2
  else if v.atMostHundredths 299900 then .ok p.rangeCode3
  else if v.atMostHundredths 2999900 then .ok p.rangeCode4
  else if v.atMostHundredths 29999900 then .ok p.rangeCode5
  else .error .range

/-- `selectRange` (P-RANGE of R121). -/
def selectRange (p : Params) (r : Bytes) : Except Raised Byte :=
  if r = autoText then .ok p.rangeCodeAuto
  else
    match parseDecimal r with
    | none => .error (.format .badRangeSyntax)
    | some v => bandCode p v

/-- The read/configure parameter for a range code (R68, P-PACK of R125). -/
def readParam (p : Params) (hold ccf : Bool) (rc : Byte) : Bytes :=
  [if hold then p.holdFlagOn else p.holdFlagOff, if ccf then p.ccfFlagOn else p.ccfFlagOff, rc,
    p.readPad]

/-- `packReadParam` (P-PACK of R125). -/
def packReadParam (p : Params) (hold ccf : Bool) (r : Bytes) : Except Raised Bytes :=
  match selectRange p r with
  | .error e => .error e
  | .ok rc => .ok (readParam p hold ccf rc)

/-- CLASSIFY_STATUS (R110): the fatal classes are returned as data, not raised. -/
def execClassifyStatus (status : Bytes) (s : State) : Host.Outcome State Fault Refusal :=
  .next (s.accept.answer ((classifyStatus status).map .status))

/-- DECODE_MEASUREMENT (R116). -/
def execDecodeMeasurement (field : Bytes) (s : State) : Host.Outcome State Fault Refusal :=
  .next (s.accept.answer ((decodeMeasurement field).map .reading))

/-- SELECT_RANGE (R121). -/
def execSelectRange (range : Bytes) (s : State) : Host.Outcome State Fault Refusal :=
  .next (s.accept.answer ((selectRange s.params range).map .rangeCode))

/-- PACK_READ_PARAM (R125). -/
def execPackReadParam (hold ccf : Bool) (range : Bytes) (s : State) :
    Host.Outcome State Fault Refusal :=
  .next (s.accept.answer ((packReadParam s.params hold ccf range).map .parameter))

end Sys2Proof.Machine
end

