-- ==== Sys2Proof/Machine/Codec.lean ====
section
/-! DEFINITION. The Frame Codec, 40_frame_codec.md, over the layouts of 30_encoding.md R62 and R64, and
the four operations that expose it. -/

namespace Sys2Proof.Machine

/-- `bcc(span)`: the XOR of every byte (P-BCC of R90). -/
def bcc (span : Bytes) : Byte := span.foldl (· ^^^ ·) 0x00

/-- `encodeShort` (P-ENCODE_SHORT of R92), its four checks in that rule's order. -/
def encodeShort (head : Byte) (command parameter : Bytes) : Except Raised Bytes :=
  if parameter.length ≠ 4 then .error (.format .badParamLength)
  else if 99 < head.toNat then .error (.format .headOutOfRange)
  else if command.length ≠ 2 then .error (.format .badCommandLength)
  else if ¬ (command ++ parameter).all isPrintable then .error (.format .nonPrintable)
  else
    let span := encodeHead head ++ command ++ parameter ++ [Chars.ETX]
    .ok ([Chars.STX] ++ span ++ hex2 (bcc span) ++ [Chars.CR, Chars.LF])

/-- `checkBcc` (P-CHECKBCC of R95): both field bytes are hexadecimal digits, of either case, and spell
the BCC of the span. -/
def checkBcc (span : Bytes) (a b : Byte) : Bool :=
  match hexval? a, hexval? b with
  | some x, some y => decide (16 * x.val + y.val = (bcc span).toNat)
  | _, _ => false

/-- A wrong byte at one of the four framing positions: STX at 0, ETX at `etx`, CR and LF at `cr` and the
next (R96). -/
def badFraming (f : Bytes) (etx cr : Nat) : Bool :=
  !(decide (f.getD 0 0 = Chars.STX) && decide (f.getD etx 0 = Chars.ETX)
    && decide (f.getD cr 0 = Chars.CR) && decide (f.getD (cr + 1) 0 = Chars.LF))

/-- `decodeShort` (P-DECODE_SHORT of R94), its checks in the order of R99. -/
def decodeShort (p : Params) (f : Bytes) : Except Raised ShortFields :=
  if f.length ≠ 14 then .error (.format .badLength)
  else if badFraming f 9 12 && p.checkFraming then .error (.format .badFraming)
  else if !checkBcc (slice f 1 9) (f.getD 10 0) (f.getD 11 0) then .error .checksum
  else
    match decodeHead (f.getD 1 0) (f.getD 2 0) with
    | none => .error (.format .nonDigitHead)
    | some head => .ok { head := head, command := slice f 3 4, parameter := slice f 5 8 }

/-- `decodeLong` (P-DECODE_LONG of R98), its checks in the order of R99. -/
def decodeLong (p : Params) (f : Bytes) : Except Raised LongFields :=
  if f.length ≠ 32 then .error (.format .badLength)
  else if badFraming f 27 30 && p.checkFraming then .error (.format .badFraming)
  else if !checkBcc (slice f 1 27) (f.getD 28 0) (f.getD 29 0) then .error .checksum
  else
    match decodeHead (f.getD 1 0) (f.getD 2 0) with
    | none => .error (.format .nonDigitHead)
    | some head =>
      match decodeMeasurement (slice f 9 14) with
      | .error e => .error e
      | .ok d1 =>
        match decodeMeasurement (slice f 15 20) with
        | .error e => .error e
        | .ok d2 =>
          match decodeMeasurement (slice f 21 26) with
          | .error e => .error e
          | .ok d3 =>
            .ok { head := head, command := slice f 3 4, status := slice f 5 8, d1 := d1, d2 := d2,
                  d3 := d3 }

/-- COMPUTE_BCC's function (P-COMPUTE_BCC of R91): the value and its rendering; an empty span has no
BCC. -/
def computeBcc (span : Bytes) : Except Raised Result :=
  if span = [] then .error (.format .badLength) else .ok (.bcc (bcc span) (hex2 (bcc span)))

/-- COMPUTE_BCC (R91). -/
def execComputeBcc (span : Bytes) (s : State) : Host.Outcome State Fault Refusal :=
  .next (s.accept.answer (computeBcc span))

/-- ENCODE_SHORT (R92). -/
def execEncodeShort (head : Byte) (command parameter : Bytes) (s : State) :
    Host.Outcome State Fault Refusal :=
  .next (s.accept.answer ((encodeShort head command parameter).map .frame))

/-- DECODE_SHORT (R94). -/
def execDecodeShort (frame : Bytes) (s : State) : Host.Outcome State Fault Refusal :=
  .next (s.accept.answer ((decodeShort s.params frame).map .short))

/-- DECODE_LONG (R98). -/
def execDecodeLong (frame : Bytes) (s : State) : Host.Outcome State Fault Refusal :=
  .next (s.accept.answer ((decodeLong s.params frame).map .long))

end Sys2Proof.Machine
end

