-- ==== Sys2Proof/Machine/Device.lean ====
section
/-! DEFINITION. The four device operations, 42_session.md R137 to R143. Each meaning covers every PHASE
the operation passes through: Idle accepts it, another phase resumes it (log 17). Between two step
boundaries everything happens in one step (20_memory.md R52; log 19). -/

namespace Sys2Proof.Machine

/-- The head of the frame an exchange sends, for the error info, and the encoder's result, are those of
P-ENTER_REMOTE (R137). -/
def enterRemoteStart (s : State) : State :=
  if s.lifecycle = .rawMode then
    s.accept.exchange (frameContext .enterRemote 0 0 s.params.modeHead s.params.cmdMode)
      (encodeShort s.params.modeHead s.params.cmdMode s.params.paramRemote)
  else s.accept.raise .illegalState 0 noHead

/-- The echo check: the decoded reply against the frame sent, in the order head, command, parameter
(R138). None where the echo is right. -/
def echoMismatch (c : OpContext) (r : ShortFields) : Option ProtocolReason :=
  if r.head.val ≠ c.sentHead.toNat then some .headMismatch
  else if r.command ≠ c.sentCommand then some .commandMismatch
  else if r.parameter ≠ spaces 4 then some .parameterNotEmpty
  else none

/-- What ENTER_REMOTE does with its reply (P-ENTER_REMOTE of R137 after `Receive`). -/
def enterRemoteReply (c : OpContext) (reply : Bytes) (s : State) : State :=
  match decodeShort s.params reply with
  | .error e => s.raise e c.index c.sentHead
  | .ok r =>
    match echoMismatch c r with
    | some reason => s.raise (.protocol reason) c.index c.sentHead
    | none => { s with lifecycle := .remoteMode }.settle .mode

/-- ENTER_REMOTE (R137). Its waits are AwaitSend, AwaitRecv(14) and AwaitSettle(MODE); any other is the
fault noSuchWait (DESIGN CHOICE, log 12). -/
def execEnterRemote (s : State) : Host.Outcome State Fault Refusal :=
  match s.phase with
  | .idle => .next (enterRemoteStart s)
  | .awaitSend => s.onSendAnswer fun _ t => (t.oweSettle .mode).receive .short
  | .awaitRecv .short => s.onReceiveAnswer .short enterRemoteReply
  | .awaitRecv .long => .fault .noSuchWait
  | .awaitSettle .mode => s.onElapsed fun _ t => t.complete .none
  | .awaitSettle .read | .awaitSettle .hold => .fault .noSuchWait

/-- The exchange with head `K` of the list, or completion after the last head (P-CONFIGURE_AND_READ of
R139). -/
def serveHead (heads : List Byte) (hold ccf : Bool) (range : Bytes) (rc : Byte) (k : Nat)
    (s : State) : State :=
  match heads[k]? with
  | none => s.complete .none
  | some h =>
    s.exchange (frameContext (.configureAndRead heads hold ccf range) k rc h s.params.cmdRead)
      (encodeShort h s.params.cmdRead (readParam s.params hold ccf rc))

/-- The start of CONFIGURE_AND_READ: legality, then the range once, before any frame (R124, R139). -/
def configureAndReadStart (heads : List Byte) (hold ccf : Bool) (range : Bytes) (s : State) : State :=
  if s.lifecycle = .remoteMode then
    match selectRange s.params range with
    | .error e => s.accept.raise e 0 noHead
    | .ok rc => serveHead heads hold ccf range rc 0 s.accept
  else s.accept.raise .illegalState 0 noHead

/-- The status of a record, or the fatal error that a status class raises (R140 step 6). -/
def recordStatus : StatusError → Except Raised RecordStatus
  | .ok => .ok .ok
  | .overRange => .ok .overRange
  | .powerHeadOff => .error .powerHeadOff
  | .eepromFault v => .error (.eeprom v)

/-- What one reply of CONFIGURE_AND_READ amounts to, steps 4 to 8 of R140: a record or an error. -/
def judgeReading (p : Params) (c : OpContext) (reply : Bytes) : Except Raised HeadResult :=
  match decodeLong p reply with
  | .error e => .error e
  | .ok r =>
    match classifyStatus r.status with
    | .error e => .error e
    | .ok cls =>
      match recordStatus cls.err with
      | .error e => .error e
      | .ok st =>
        if r.head.val ≠ c.sentHead.toNat then .error (.protocol .headMismatch)
        else
          .ok { index := c.index, head := r.head, status := st, battery := cls.battery, d1 := r.d1,
                d2 := r.d2, d3 := r.d3 }

/-- What CONFIGURE_AND_READ does with a reply: emit the record and settle, or raise (R140). -/
def configureAndReadReply (c : OpContext) (reply : Bytes) (s : State) : State :=
  match judgeReading s.params c reply with
  | .error e => s.raise e c.index c.sentHead
  | .ok record => (s.emit record).settle .read

/-- CONFIGURE_AND_READ (R139 to R141). Its waits are AwaitSend, AwaitRecv(32) and AwaitSettle(READ); any
other is the fault noSuchWait (DESIGN CHOICE, log 12). -/
def execConfigureAndRead (heads : List Byte) (hold ccf : Bool) (range : Bytes) (s : State) :
    Host.Outcome State Fault Refusal :=
  match s.phase with
  | .idle => .next (configureAndReadStart heads hold ccf range s)
  | .awaitSend => s.onSendAnswer fun _ t => (t.oweSettle .read).receive .long
  | .awaitRecv .long => s.onReceiveAnswer .long configureAndReadReply
  | .awaitRecv .short => .fault .noSuchWait
  | .awaitSettle .read =>
    s.onElapsed fun c t => serveHead heads hold ccf range c.rangeCode (c.index + 1) t
  | .awaitSettle .mode | .awaitSettle .hold => .fault .noSuchWait

/-- The start of SET_HOLD: the frame goes to HOLD_HEAD (P-SET_HOLD of R142). -/
def setHoldStart (flag : Bool) (s : State) : State :=
  if s.lifecycle = .remoteMode then
    s.accept.exchange (frameContext (.setHold flag) 0 0 s.params.holdHead s.params.cmdHold)
      (encodeShort s.params.holdHead s.params.cmdHold
        (if flag then s.params.holdParamOn else s.params.holdParamOff))
  else s.accept.raise .illegalState 0 noHead

/-- The success of SET_HOLD: HELD is set to the flag, then Settle(HOLD) (R142). -/
def setHoldDone (flag : Bool) (s : State) : State := { s with held := heldOf flag }.settle .hold

/-- What SET_HOLD does once its frame is sent: with HOLD_EXPECTS_REPLY it reads a reply (R142). -/
def setHoldSent (flag : Bool) (s : State) : State :=
  if s.params.holdExpectsReply then (s.oweSettle .hold).receive .short
  else setHoldDone flag (s.oweSettle .hold)

/-- What SET_HOLD does with a reply: it must decode; its contents are not checked further (R142). -/
def setHoldReply (flag : Bool) (c : OpContext) (reply : Bytes) (s : State) : State :=
  match decodeShort s.params reply with
  | .error e => s.raise e c.index c.sentHead
  | .ok _ => setHoldDone flag s

/-- SET_HOLD (R142). Its waits are AwaitSend, AwaitRecv(14) and AwaitSettle(HOLD); any other is the fault
noSuchWait (DESIGN CHOICE, log 12). -/
def execSetHold (flag : Bool) (s : State) : Host.Outcome State Fault Refusal :=
  match s.phase with
  | .idle => .next (setHoldStart flag s)
  | .awaitSend => s.onSendAnswer fun _ t => setHoldSent flag t
  | .awaitRecv .short => s.onReceiveAnswer .short (setHoldReply flag)
  | .awaitRecv .long => .fault .noSuchWait
  | .awaitSettle .hold => s.onElapsed fun _ t => t.complete .none
  | .awaitSettle .mode | .awaitSettle .read => .fault .noSuchWait

/-- The start of CLEAR_INTEGRATED: addressed to one head (P-CLEAR of R143). -/
def clearIntegratedStart (head : Byte) (s : State) : State :=
  if s.lifecycle = .remoteMode then
    s.accept.exchange (frameContext (.clearIntegrated head) 0 0 head s.params.cmdClear)
      (encodeShort head s.params.cmdClear s.params.clearParam)
  else s.accept.raise .illegalState 0 noHead

/-- CLEAR_INTEGRATED (R143): the transport's acceptance of the 14 bytes is its success; no reply and no
settle. Its one wait is AwaitSend; any other is the fault noSuchWait (DESIGN CHOICE, log 12). -/
def execClearIntegrated (head : Byte) (s : State) : Host.Outcome State Fault Refusal :=
  match s.phase with
  | .idle => .next (clearIntegratedStart head s)
  | .awaitSend => s.onSendAnswer fun _ t => t.complete .none
  | .awaitRecv _ => .fault .noSuchWait
  | .awaitSettle _ => .fault .noSuchWait

end Sys2Proof.Machine
end

