-- ==== Sys2Proof/Machine/Lifecycle.lean ====
section
/-! DEFINITION. The lifecycle and state operations, 42_session.md R134 to R136. -/

namespace Sys2Proof.Machine

/-- ATTACH (P-ATTACH of R134): Disconnected to RawMode, IllegalState elsewhere. -/
def execAttach (s : State) : Host.Outcome State Fault Refusal :=
  if s.lifecycle = .disconnected then
    .next ({ s.accept with lifecycle := .rawMode }.complete .none)
  else .next (s.accept.raise .illegalState 0 noHead)

/-- DETACH (P-DETACH of R135): the session state is discarded, in every LIFECYCLE. -/
def execDetach (s : State) : Host.Outcome State Fault Refusal :=
  .next (s.accept.disconnect.complete .none)

/-- READ_STATE (R136): the STATE byte of R19. -/
def execReadState (s : State) : Host.Outcome State Fault Refusal :=
  .next (s.accept.complete (.state s.stateByte))

end Sys2Proof.Machine
end

