-- ==== Sys2Proof/Machine/Dispatch.lean ====
section
/-! DEFINITION. One arm per host operation. In PHASE Idle an arm accepts the operation, in another PHASE
it resumes it (log 17). -/

namespace Sys2Proof.Machine

def exec (i : Instr) (s : State) : Host.Outcome State Fault Refusal :=
  match i with
  | .attach => Sys2Proof.Machine.execAttach s
  | .detach => Sys2Proof.Machine.execDetach s
  | .readState => Sys2Proof.Machine.execReadState s
  | .enterRemote => Sys2Proof.Machine.execEnterRemote s
  | .configureAndRead heads hold ccf range => Sys2Proof.Machine.execConfigureAndRead heads hold ccf range s
  | .setHold flag => Sys2Proof.Machine.execSetHold flag s
  | .clearIntegrated head => Sys2Proof.Machine.execClearIntegrated head s
  | .computeBcc span => Sys2Proof.Machine.execComputeBcc span s
  | .encodeShort head command parameter => Sys2Proof.Machine.execEncodeShort head command parameter s
  | .decodeShort frame => Sys2Proof.Machine.execDecodeShort frame s
  | .decodeLong frame => Sys2Proof.Machine.execDecodeLong frame s
  | .classifyStatus status => Sys2Proof.Machine.execClassifyStatus status s
  | .decodeMeasurement field => Sys2Proof.Machine.execDecodeMeasurement field s
  | .selectRange range => Sys2Proof.Machine.execSelectRange range s
  | .packReadParam hold ccf range => Sys2Proof.Machine.execPackReadParam hold ccf range s

end Sys2Proof.Machine
end

