-- ==== Sys2Proof/WellFormed.lean ====
section
/-! DEFINITION. Which operations have a request: the bounds that 30_encoding.md R74 puts on length and
count bytes. Every other operand check belongs to the operation itself (R75). -/

namespace Sys2Proof

/-- A string that `str(max)` or `list(max)` can carry: at most `max` bytes, and the length fits its
length byte (R74). -/
def fits (max : Nat) (s : Bytes) : Bool := decide (s.length ≤ max) && decide (s.length ≤ 255)

/-- The operation can be written as a request under the parameter set `p` (R74, R76). -/
def Instr.wellFormed (p : Params) : Instr → Bool
  | .attach => true
  | .detach => true
  | .readState => true
  | .enterRemote => true
  | .configureAndRead heads _ _ range => fits p.maxHeads heads && fits p.maxRangeLen range
  | .setHold _ => true
  | .clearIntegrated _ => true
  | .computeBcc span => fits p.maxBccSpan span
  | .encodeShort _ command parameter => fits 255 command && fits 255 parameter
  | .decodeShort frame => fits p.maxFrameIn frame
  | .decodeLong frame => fits p.maxFrameIn frame
  | .classifyStatus status => fits 255 status
  | .decodeMeasurement field => fits 255 field
  | .selectRange range => fits p.maxRangeLen range
  | .packReadParam _ _ range => fits p.maxRangeLen range

end Sys2Proof
end

