-- ==== Sys2Proof/Decode.lean ====
section
/-! DEFINITION. The host request format of 30_encoding.md R74 to R78: decoding, total on any bytes and
rejecting by the error kind R182 ranks first, then the encoder, then the opcode-table word. -/

namespace Sys2Proof

/-- The operand types of R74. -/
inductive OperandType
  | u8 | bool | str (max : Nat) | list (max : Nat)
  deriving DecidableEq, Repr

/-- An operand's value. -/
inductive Operand
  | u8 (b : Byte) | bool (b : Bool) | str (s : Bytes) | list (l : List Byte)
  deriving DecidableEq, Repr

/-- What reading one operand, or a row of them, from a request gives: the value, the bytes that remain,
and every FormatError reason of R74 that applies. -/
structure Parsed (α : Type) where
  value : α
  rest : Bytes
  reasons : List FormatReason
  deriving DecidableEq, Repr

/-- The operand types of an opcode, in order; none for a reserved opcode (R76, R78). -/
def operandFormat (p : Params) (opcode : Byte) : Option (List OperandType) :=
  match opcode.toNat with
  | 0x01 => some []
  | 0x02 => some []
  | 0x03 => some []
  | 0x10 => some []
  | 0x11 => some [.list p.maxHeads, .bool, .bool, .str p.maxRangeLen]
  | 0x12 => some [.bool]
  | 0x13 => some [.u8]
  | 0x20 => some [.str p.maxBccSpan]
  | 0x21 => some [.u8, .str 255, .str 255]
  | 0x22 => some [.str p.maxFrameIn]
  | 0x23 => some [.str p.maxFrameIn]
  | 0x24 => some [.str 255]
  | 0x25 => some [.str 255]
  | 0x26 => some [.str p.maxRangeLen]
  | 0x27 => some [.bool, .bool, .str p.maxRangeLen]
  | _ => none

/-- A length or count byte and the bytes it announces. `tooLong` is the reason of a value above `max`;
a request that ends too early is BadOperand (R74). -/
def parseCounted (max : Nat) (tooLong : FormatReason) : Bytes → Parsed Bytes
  | [] => ⟨[], [], [.badOperand]⟩
  | n :: rest =>
    let long := if max < n.toNat then [tooLong] else []
    if rest.length < n.toNat then ⟨[], [], long ++ [.badOperand]⟩
    else ⟨rest.take n.toNat, rest.drop n.toNat, long⟩

/-- One operand of R74. A bool byte other than 0x00 and 0x01, or a missing byte, is BadOperand. -/
def parseOperand : OperandType → Bytes → Parsed Operand
  | .u8, [] => ⟨.u8 0, [], [.badOperand]⟩
  | .u8, b :: rest => ⟨.u8 b, rest, []⟩
  | .bool, [] => ⟨.bool false, [], [.badOperand]⟩
  | .bool, b :: rest =>
    if b = 0x00 then ⟨.bool false, rest, []⟩
    else if b = 0x01 then ⟨.bool true, rest, []⟩
    else ⟨.bool false, rest, [.badOperand]⟩
  | .str max, bs =>
    let q := parseCounted max .badLength bs
    ⟨.str q.value, q.rest, q.reasons⟩
  | .list max, bs =>
    let q := parseCounted max .tooManyHeads bs
    ⟨.list q.value, q.rest, q.reasons⟩

/-- The operands of a request, in the order of R76, and the whole-request check: bytes left after the
last operand are BadOperand (R74). -/
def parseOperands : List OperandType → Bytes → List Operand × List FormatReason
  | [], [] => ([], [])
  | [], _ :: _ => ([], [.badOperand])
  | t :: ts, bs =>
    let q := parseOperand t bs
    let r := parseOperands ts q.rest
    (q.value :: r.1, q.reasons ++ r.2)

/-- The reason a malformed request reports: the one that applies, or, where several different ones
apply, the free value's choice among them (log 10). -/
def reportedReason (request : Bytes) : List FormatReason → Option FormatReason
  | [] => none
  | r :: rs =>
    if rs.all (fun x => decide (x = r)) then some r
    else some ((r :: rs).getD (Config.pickReason request % (rs.length + 1)) r)

/-- The operation of an opcode applied to operands of that opcode's types (R76). -/
def buildInstr (opcode : Byte) (vals : List Operand) : Option Instr :=
  match opcode.toNat, vals with
  | 0x01, [] => some .attach
  | 0x02, [] => some .detach
  | 0x03, [] => some .readState
  | 0x10, [] => some .enterRemote
  | 0x11, [.list heads, .bool hold, .bool ccf, .str range] =>
    some (.configureAndRead heads hold ccf range)
  | 0x12, [.bool flag] => some (.setHold flag)
  | 0x13, [.u8 head] => some (.clearIntegrated head)
  | 0x20, [.str span] => some (.computeBcc span)
  | 0x21, [.u8 head, .str command, .str parameter] => some (.encodeShort head command parameter)
  | 0x22, [.str frame] => some (.decodeShort frame)
  | 0x23, [.str frame] => some (.decodeLong frame)
  | 0x24, [.str status] => some (.classifyStatus status)
  | 0x25, [.str field] => some (.decodeMeasurement field)
  | 0x26, [.str range] => some (.selectRange range)
  | 0x27, [.bool hold, .bool ccf, .str range] => some (.packReadParam hold ccf range)
  | _, _ => none

/-- Decoding a request: IllegalOp for a reserved opcode, whose remaining bytes are not checked (R78),
before FormatError for a bad format (R182). A request of no bytes lacks its opcode byte: BadOperand
(log 9). -/
def decodeRequest (p : Params) (request : Bytes) : Except Raised Instr :=
  match request with
  | [] => .error (.format .badOperand)
  | opcode :: rest =>
    match operandFormat p opcode with
    | none => .error .illegalOp
    | some fmt =>
      let q := parseOperands fmt rest
      match reportedReason request q.2 with
      | some r => .error (.format r)
      | none =>
        match buildInstr opcode q.1 with
        | some i => .ok i
        | none => .error .illegalOp

/-- The opcode of an operation (R76). -/
def Instr.opcode : Instr → Byte
  | .attach => 0x01
  | .detach => 0x02
  | .readState => 0x03
  | .enterRemote => 0x10
  | .configureAndRead _ _ _ _ => 0x11
  | .setHold _ => 0x12
  | .clearIntegrated _ => 0x13
  | .computeBcc _ => 0x20
  | .encodeShort _ _ _ => 0x21
  | .decodeShort _ => 0x22
  | .decodeLong _ => 0x23
  | .classifyStatus _ => 0x24
  | .decodeMeasurement _ => 0x25
  | .selectRange _ => 0x26
  | .packReadParam _ _ _ => 0x27

/-- The operands of an operation in the order of R76. -/
def Instr.operands : Instr → List Operand
  | .attach => []
  | .detach => []
  | .readState => []
  | .enterRemote => []
  | .configureAndRead heads hold ccf range => [.list heads, .bool hold, .bool ccf, .str range]
  | .setHold flag => [.bool flag]
  | .clearIntegrated head => [.u8 head]
  | .computeBcc span => [.str span]
  | .encodeShort head command parameter => [.u8 head, .str command, .str parameter]
  | .decodeShort frame => [.str frame]
  | .decodeLong frame => [.str frame]
  | .classifyStatus status => [.str status]
  | .decodeMeasurement field => [.str field]
  | .selectRange range => [.str range]
  | .packReadParam hold ccf range => [.bool hold, .bool ccf, .str range]

/-- The bytes of an operand (R74). -/
def encodeOperand : Operand → Bytes
  | .u8 b => [b]
  | .bool b => [if b then 0x01 else 0x00]
  | .str s => BitVec.ofNat 8 s.length :: s
  | .list l => BitVec.ofNat 8 l.length :: l

/-- The request of an operation: the opcode byte, then the operands (R74). -/
def encode (i : Instr) : Bytes := i.opcode :: i.operands.flatMap encodeOperand

/-- How many operand bytes a request of these operand types has when it begins with `bs` and every
byte beyond `bs` is 0 (R74). -/
def formatLength : List OperandType → Bytes → Nat
  | [], _ => 0
  | .u8 :: ts, bs => 1 + formatLength ts (bs.drop 1)
  | .bool :: ts, bs => 1 + formatLength ts (bs.drop 1)
  | .str _ :: ts, bs =>
    1 + (bs.headD 0).toNat + formatLength ts (bs.drop (1 + (bs.headD 0).toNat))
  | .list _ :: ts, bs =>
    1 + (bs.headD 0).toNat + formatLength ts (bs.drop (1 + (bs.headD 0).toNat))

/-- The request that begins with the bytes `bs`, made as long as its format says with bytes 0. -/
def padRequest (p : Params) (bs : Bytes) : Bytes :=
  match bs with
  | [] => []
  | opcode :: rest =>
    match operandFormat p opcode with
    | none => opcode :: rest
    | some fmt => opcode :: (rest ++ List.replicate (formatLength fmt rest - rest.length) 0x00)

/-- The first `n` bytes of a word, bits 7..0 first. -/
def wordBytes : Nat → Nat → Bytes
  | 0, _ => []
  | n + 1, w => BitVec.ofNat 8 (w % 256) :: wordBytes n (w / 256)

/-- The request that an opcode-table word of `nbits` bits stands for; every operand byte above the word
is 0. -/
def tableRequest (p : Params) (nbits w : Nat) : Bytes := padRequest p (wordBytes (nbits / 8) w)

/-- The operation the decoder reads from an opcode-table word, under the machine's own parameter set. -/
def decodeTableWord (nbits w : Nat) : Option Instr :=
  match decodeRequest Config.params (tableRequest Config.params nbits w) with
  | .ok i => some i
  | .error _ => none

end Sys2Proof
end

