-- ==== Sys2Proof/Machine/Port.lean ====
section
/-! DEFINITION. The request port (20_memory.md R54): taking the oldest waiting request, turning a
malformed one away, and placing a request there for the opcode-table word. -/

namespace Sys2Proof.Machine

/-- The oldest request at the port, and the state with it taken off; none while no request waits. -/
def State.takeRequest (s : State) : Option (Bytes × State) :=
  match s.hostPort with
  | [] => none
  | request :: rest => some (request, { s with hostPort := rest })

/-- A request that does not decode: accepted, and ended by IllegalOp or FormatError with no frame head
(R78, R180, R182; log 8). -/
def State.rejectRequest (e : Raised) (s : State) : State := s.accept.raise e 0 noHead

/-- The operations that run over several steps: those that send frames (30_encoding.md R72). -/
def isDevice : Instr → Bool
  | .enterRemote => true
  | .configureAndRead _ _ _ _ => true
  | .setHold _ => true
  | .clearIntegrated _ => true
  | _ => false

/-- The engine idle, with a request at the front of the port. -/
def State.placeRequest (request : Bytes) (s : State) : State :=
  { s with
    phase := .idle, cur := none, settlePending := false, resetInput := false,
    hostPort := request :: s.hostPort }

end Sys2Proof.Machine
end

