-- ==== Sys2Proof/Machine/Step.lean ====
section
/-! DEFINITION. One step of the engine: one event of 00_scope.md R6. -/

namespace Sys2Proof.Machine

/-- One event (R6). The reset input comes first, in any PHASE (R201). In Idle the engine accepts the
oldest waiting request (R54), or waits for one; in any other PHASE it resumes the operation in CUR,
which itself waits where no answer has come (R206; log 3). -/
def step (s : State) : Host.Outcome State Fault Refusal :=
  if s.resetInput then .next s.applyReset
  else
    match s.phase with
    | .idle =>
      match s.takeRequest with
      | none => .next s
      | some (request, t) =>
        match decodeRequest t.params request with
        | .error e => .next (t.rejectRequest e)
        | .ok i => exec i t
    | _ =>
      match s.cur with
      | none => .fault .noOperation
      | some c => if isDevice c.request then exec c.request s else .fault .noSuchWait

/-- The state whose next step accepts the request of an opcode-table word (log 2). -/
def State.withFetchWord (s : State) (nbits w : Nat) : State :=
  s.placeRequest (tableRequest s.params nbits w)

end Sys2Proof.Machine
end

