-- ==== Sys2Proof/Machine/HostSide.lean ====
section
/-! DEFINITION. The moves of the engine's environment (00_scope.md R7): the host's and the transport's,
each an update of State's interface fields that can land between any two steps; and the
pseudo-operations of 30_encoding.md R83, which are the host's. -/

namespace Sys2Proof.Machine

/-- The host issues a request: it waits at the port until the engine is Idle (R54). -/
def State.issue (request : Bytes) (s : State) : State := { s with hostPort := s.hostPort ++ [request] }

/-- The transport's next answer to a send (R189). -/
def State.answerSend (a : SendAnswer) (s : State) : State :=
  { s with sendAnswers := s.sendAnswers ++ [a] }

/-- The transport's next answer to a receive (R189). -/
def State.answerReceive (a : RecvAnswer) (s : State) : State :=
  { s with recvAnswers := s.recvAnswers ++ [a] }

/-- The reset input is pulled (R201). -/
def State.pullReset (s : State) : State := { s with resetInput := true }

/-- The pseudo-operations of R83. -/
inductive Pseudo
  | connect | read1 (head : Byte) (range : Bytes) | hold | run | reconnect
  deriving DecidableEq, Repr

/-- The expansion of a pseudo-operation (R83). Opening the transport for RECONNECT is outside the engine. -/
def Pseudo.expand : Pseudo → List Instr
  | .connect => [.attach, .enterRemote]
  | .read1 head range => [.configureAndRead [head] false false range]
  | .hold => [.setHold true]
  | .run => [.setHold false]
  | .reconnect => [.detach, .attach, .enterRemote]

/-- Steps until the engine is Idle again, at most `fuel` of them: an operation whose transport never
answers does not end (R206). -/
def runOperation : Nat → State → Host.Outcome State Fault Refusal
  | 0, s => .next s
  | n + 1, s =>
    match step s with
    | .next t => if t.phase = .idle then .next t else runOperation n t
    | .fault r => .fault r
    | .refused r => .refused r

/-- A host that issues operations one at a time and stops at the first that ends in `Err` (R83). -/
def runScript (fuel : Nat) : List Instr → State → Host.Outcome State Fault Refusal
  | [], s => .next s
  | i :: rest, s =>
    match runOperation fuel (s.issue (encode i)) with
    | .next t =>
      match t.outcome with
      | some (.ok _) => runScript fuel rest t
      | _ => .next t
    | .fault r => .fault r
    | .refused r => .refused r

end Sys2Proof.Machine
end

