-- ==== Sys2Proof/Safety.lean ====
section
/-! DEFINITION. What claims about runs are stated in: the invariants of 10_state.md R33, the stronger
control invariant that keeps every step from stopping, and a safe step. -/

namespace Sys2Proof.Machine

/-- A session exists: LIFECYCLE is RawMode or RemoteMode. -/
abbrev State.inSession (s : State) : Prop := s.lifecycle ≠ .disconnected

/-- PHASE is AwaitSettle of some kind. -/
def Phase.settling : Phase → Bool
  | .awaitSettle _ => true
  | _ => false

/-- (I1) `PHASE = Idle` if and only if `CUR = none` (R33). -/
abbrev State.i1 (s : State) : Prop := s.phase = .idle ↔ s.cur = none

/-- (I2) Disconnected implies HELD Unknown and no settle pending (R33). -/
abbrev State.i2 (s : State) : Prop :=
  s.lifecycle = .disconnected → s.held = .unknown ∧ s.settlePending = false

/-- (I3) SETTLE_PENDING implies AwaitSettle (R33). -/
abbrev State.i3 (s : State) : Prop := s.settlePending = true → s.phase.settling = true

/-- (I4) A wait implies a session (R33). -/
abbrev State.i4 (s : State) : Prop := s.phase ≠ .idle → s.inSession

/-- The four invariants of R33 together. -/
abbrev State.sessionInv (s : State) : Prop := s.i1 ∧ s.i2 ∧ s.i3 ∧ s.i4

/-- The settle kind of an operation; none for one without a settle (42_session.md R145). -/
def settleKindOf : Instr → Option SettleKind
  | .enterRemote => some .mode
  | .configureAndRead _ _ _ _ => some .read
  | .setHold _ => some .hold
  | _ => none

/-- The reply an operation may wait for; none for one that receives nothing (30_encoding.md R72). -/
def replyKindOf : Instr → Option ReplyKind
  | .enterRemote => some .short
  | .configureAndRead _ _ _ _ => some .long
  | .setHold _ => some .short
  | _ => none

/-- The operation in CUR is one that waits, PHASE is a wait of that operation, and its settle mark is
of its own kind. -/
def OpContext.fits (c : OpContext) (phase : Phase) : Bool :=
  isDevice c.request &&
    (decide (c.owe = none) || decide (c.owe = settleKindOf c.request)) &&
    match phase with
    | .idle => true
    | .awaitSend => true
    | .awaitRecv n => decide (replyKindOf c.request = some n)
    | .awaitSettle kind => decide (settleKindOf c.request = some kind)

/-- R33, and CUR fits PHASE. -/
def State.consistent (s : State) : Prop := s.sessionInv ∧ ∀ c ∈ s.cur, c.fits s.phase = true

/-- The frame buffers hold whole frames: 14 bytes in TXBUF, 14 or 32 in RXBUF (R22, R23). -/
def State.buffersWhole (s : State) : Prop :=
  (∀ f ∈ s.txBuf, f.length = 14) ∧ ∀ f ∈ s.rxBuf, f.length = 14 ∨ f.length = 32

/-- Where an operation is legal, R130's table. -/
def legalIn : Instr → Lifecycle → Prop
  | .attach, l => l = .disconnected
  | .enterRemote, l => l = .rawMode
  | .configureAndRead _ _ _ _, l => l = .remoteMode
  | .setHold _, l => l = .remoteMode
  | .clearIntegrated _, l => l = .remoteMode
  | _, _ => True

/-- The pure operations, opcodes 0x20 to 0x27 (30_encoding.md R76). -/
def isPure (i : Instr) : Prop := 0x20 ≤ i.opcode.toNat

/-- `s` after an operation that ends in the step that accepts it, and writes nothing else: RESULTS
cleared, the outcome delivered, Idle (10_state.md R26, R180 step 4). -/
def State.answered (o : OpOutcome) (s : State) : State :=
  { s with results := [], outcome := some o, phase := .idle, cur := none }

/-- `s` after a request is accepted and its first frame `f` handed to the transport (R21, R131). -/
def State.started (c : OpContext) (f : Bytes) (s : State) : State :=
  { s with results := [], outcome := none, cur := some c, phase := .awaitSend, txBuf := some f,
           txStream := s.txStream ++ f }

/-- `s` after an outcome is delivered, with nothing else written (R180 step 4). -/
def State.ended (o : OpOutcome) (s : State) : State :=
  { s with outcome := some o, phase := .idle, cur := none }

/-- `s` with its session ended: Disconnected, HELD Unknown, no settle pending (R180 step 2). -/
def State.sessionLost (s : State) : State :=
  { s with lifecycle := .disconnected, held := .unknown, settlePending := false }

/-- `s` waiting out a settle of the given kind, an error to deliver after it noted in CUR (R180). -/
def State.settlingFor (kind : SettleKind) (c : OpContext) (e : Raised) (s : State) : State :=
  { s with settlePending := true, phase := .awaitSettle kind,
           cur := some { c with failure := some ⟨e.kind, e.info c.index c.sentHead⟩ } }

/-- `s` with the oldest send answer used up. -/
def State.sendTaken (rest : List SendAnswer) (s : State) : State := { s with sendAnswers := rest }

/-- `s` with the oldest receive answer, the reply `b`, taken into RXBUF. -/
def State.replyTaken (b : Bytes) (rest : List RecvAnswer) (s : State) : State :=
  { s with recvAnswers := rest, rxBuf := some b }

/-- One good exchange of CONFIGURE_AND_READ: the head addressed, the frame sent, the reply received and
the record it yields. -/
structure Exchange where
  head : Byte
  frame : Bytes
  reply : Bytes
  record : HeadResult
  deriving DecidableEq, Repr

/-- The `k`th exchange goes well under the parameters `p` and the read parameter `param`: the frame is
the encoder's, the reply decodes to the head addressed with a status that is not fatal, and the record
holds what the reply says (R139, R140, 10_state.md R27). -/
def Exchange.good (p : Params) (param : Bytes) (k : Nat) (x : Exchange) : Prop :=
  encodeShort x.head p.cmdRead param = .ok x.frame ∧
  ∃ r cls,
    decodeLong p x.reply = .ok r ∧ classifyStatus r.status = .ok cls ∧
    r.head.val = x.head.toNat ∧ x.record.index = k ∧ x.record.head = r.head ∧
    (cls.err = .ok ∧ x.record.status = .ok ∨ cls.err = .overRange ∧ x.record.status = .overRange) ∧
    x.record.battery = cls.battery ∧
    x.record.d1 = r.d1 ∧ x.record.d2 = r.d2 ∧ x.record.d3 = r.d3

/-- A safe step: it answers a next state, neither a fault nor a refusal. -/
def State.stepsOn (s : State) : Prop := ∃ t, step s = .next t

end Sys2Proof.Machine
end

