-- ==== Sys2Proof/Certificates/Slice0/Obligations.lean ====
section
/-! DEFINITION. The statements for the provers, in the order of OBLIGATIONS.json. Each docstring names the
rule of spec/ it formalises. -/

open Sys2Proof Sys2Proof.Machine

/-- R34: the reset table. -/
def Obligations.ResetGivesTheTable : Prop :=
  State.reset.lifecycle = .disconnected ∧ State.reset.held = .unknown ∧
  State.reset.stateByte = 0x00 ∧ State.reset.phase = .idle ∧ State.reset.cur = none ∧
  State.reset.settlePending = false ∧ State.reset.txBuf = none ∧ State.reset.rxBuf = none ∧
  State.reset.results = []

/-- R136 with the codes of R19: READ_STATE answers HELDcode << 2 | LIFECYCLEcode in every state and
writes no session state; its request is the byte 0x03. -/
def Obligations.ReadStateAnswersTheStateByte : Prop :=
  (∀ p : Params, decodeRequest p [0x03] = .ok .readState) ∧
  ∀ s : State, ∃ b : Byte,
    exec .readState s = .next (s.answered (.ok (.state b))) ∧
    b.toNat =
      4 * (match s.held with | .unknown => 0 | .running => 1 | .held => 2) +
      (match s.lifecycle with | .disconnected => 0 | .rawMode => 1 | .remoteMode => 2)

/-- R134: ATTACH takes Disconnected to RawMode, sends no byte, and is IllegalState elsewhere; its request is
the byte 0x01. That RESULTS is cleared, by the rejected ATTACH too, is R26 as the model reads it beside
R178: the model's choice, log 8 (DEDUCED). -/
def Obligations.AttachOpensTheSession : Prop :=
  (∀ p : Params, decodeRequest p [0x01] = .ok .attach) ∧
  ∀ s : State,
    (s.lifecycle = .disconnected →
      exec .attach s = .next { s.answered (.ok .none) with lifecycle := .rawMode }) ∧
    (s.lifecycle ≠ .disconnected →
      exec .attach s = .next (s.answered (.err .illegalState ⟨0, 0, 0, 0xFF⟩)))

/-- R135: DETACH discards the session state in every LIFECYCLE and sends no byte; its request is the byte
0x02. -/
def Obligations.DetachDiscardsTheSession : Prop :=
  (∀ p : Params, decodeRequest p [0x02] = .ok .detach) ∧
  ∀ s : State, exec .detach s = .next (s.answered (.ok .none)).sessionLost

/-- R178 with the table of R130: an operation requested where it is not legal ends in IllegalState, code
8; nothing is sent, and nothing changes but RESULTS, which the acceptance of every request clears (R26;
log 8). -/
def Obligations.IllegalStateChangesNothing : Prop :=
  ErrorKind.illegalState.code = 8 ∧
  ∀ (i : Instr) (s : State), s.phase = .idle → ¬ legalIn i s.lifecycle →
    exec i s = .next (s.answered (.err .illegalState ⟨0, 0, 0, 0xFF⟩))

/-- R91: COMPUTE_BCC, with its request-boundary check. The text is two digits of the lowercase
hexadecimal alphabet, high nibble first. -/
def Obligations.ComputeBccAnswersValueAndText : Prop :=
  (∀ s : State, exec (.computeBcc []) s = .next (s.answered (.err .formatError ⟨1, 0, 0, 0xFF⟩))) ∧
  (∀ (b : Byte) (span : Bytes) (s : State),
    exec (.computeBcc (b :: span)) s =
      .next (s.answered (.ok (.bcc (span.foldl (· ^^^ ·) b)
        (let v := (span.foldl (· ^^^ ·) b).toNat
         let alphabet : Bytes := [0x30, 0x31, 0x32, 0x33, 0x34, 0x35, 0x36, 0x37, 0x38, 0x39,
           0x61, 0x62, 0x63, 0x64, 0x65, 0x66]
         [alphabet.getD (v / 16) 0, alphabet.getD (v % 16) 0]))))) ∧
  (∀ (p : Params) (span : Bytes), span.length ≤ p.maxBccSpan → span.length ≤ 255 →
    decodeRequest p (0x20 :: BitVec.ofNat 8 span.length :: span) = .ok (.computeBcc span)) ∧
  (∀ (p : Params) (span : Bytes), p.maxBccSpan < span.length → span.length ≤ 255 →
    decodeRequest p (0x20 :: BitVec.ofNat 8 span.length :: span) = .error (.format .badLength))

/-- R126, the laws of the BCC: it is the XOR of the parts of a span, does not depend on the order of the
bytes, and a span with itself gives 0. -/
def Obligations.BccIsOrderFreeXor : Prop :=
  (∀ a b : Bytes, bcc (a ++ b) = bcc a ^^^ bcc b) ∧
  (∀ a b : Bytes, a.Perm b → bcc a = bcc b) ∧
  (∀ a : Bytes, bcc (a ++ a) = 0x00)

/-- R92: ENCODE_SHORT, the four checks in their order and the frame. -/
def Obligations.EncodeShortChecksInOrder : Prop :=
  ∀ (head : Byte) (command parameter : Bytes) (s : State),
    (command.length ≤ 255 → parameter.length ≤ 255 →
      decodeRequest s.params ([0x21, head, BitVec.ofNat 8 command.length] ++ command ++
        [BitVec.ofNat 8 parameter.length] ++ parameter) = .ok (.encodeShort head command parameter)) ∧
    (parameter.length ≠ 4 →
      exec (.encodeShort head command parameter) s =
        .next (s.answered (.err .formatError ⟨3, 0, 0, 0xFF⟩))) ∧
    (parameter.length = 4 → 99 < head.toNat →
      exec (.encodeShort head command parameter) s =
        .next (s.answered (.err .formatError ⟨2, 0, 0, 0xFF⟩))) ∧
    (parameter.length = 4 → head.toNat ≤ 99 → command.length ≠ 2 →
      exec (.encodeShort head command parameter) s =
        .next (s.answered (.err .formatError ⟨4, 0, 0, 0xFF⟩))) ∧
    (parameter.length = 4 → head.toNat ≤ 99 → command.length = 2 →
      (∃ b ∈ command ++ parameter, b.toNat < 0x20 ∨ 0x7E < b.toNat) →
      exec (.encodeShort head command parameter) s =
        .next (s.answered (.err .formatError ⟨5, 0, 0, 0xFF⟩))) ∧
    (parameter.length = 4 → head.toNat ≤ 99 → command.length = 2 →
      (∀ b ∈ command ++ parameter, 0x20 ≤ b.toNat ∧ b.toNat ≤ 0x7E) →
      ∃ f, exec (.encodeShort head command parameter) s = .next (s.answered (.ok (.frame f))) ∧
        f = [0x02, BitVec.ofNat 8 (0x30 + head.toNat / 10), BitVec.ofNat 8 (0x30 + head.toNat % 10)]
            ++ command ++ parameter ++ [0x03]
            ++ hex2 (bcc ([BitVec.ofNat 8 (0x30 + head.toNat / 10),
                           BitVec.ofNat 8 (0x30 + head.toNat % 10)]
                          ++ command ++ parameter ++ [0x03]))
            ++ [0x0D, 0x0A])

/-- R63 with the layout of R62: the layout of every frame the encoder builds, its BCC span `f[1..9]` and its check field
`f[10..11]`. -/
def Obligations.EncodedFrameHasTheShortLayout : Prop :=
  ∀ (head : Byte) (command parameter f : Bytes), encodeShort head command parameter = .ok f →
    f.length = 14 ∧ f[0]? = some 0x02 ∧
    slice f 1 2 = [BitVec.ofNat 8 (0x30 + head.toNat / 10), BitVec.ofNat 8 (0x30 + head.toNat % 10)] ∧
    slice f 3 4 = command ∧ slice f 5 8 = parameter ∧ f[9]? = some 0x03 ∧
    slice f 10 11 = hex2 (bcc (slice f 1 9)) ∧ f[12]? = some 0x0D ∧ f[13]? = some 0x0A

/-- R100: what the encoder builds, the decoder gives back, under either value of CHECK_FRAMING. -/
def Obligations.ShortFrameRoundTrip : Prop :=
  ∀ (p : Params) (head : Byte) (command parameter : Bytes),
    head.toNat ≤ 99 → command.length = 2 → parameter.length = 4 →
    (∀ b ∈ command ++ parameter, 0x20 ≤ b.toNat ∧ b.toNat ≤ 0x7E) →
    ∃ f r, encodeShort head command parameter = .ok f ∧ decodeShort p f = .ok r ∧
      r.head.val = head.toNat ∧ r.command = command ∧ r.parameter = parameter

/-- R94 with R95 and R96: DECODE_SHORT's checks in their order, and its result. A hexadecimal digit of the
BCC field is of either letter case, a head digit is decimal, and no other byte is one (R59, R95). -/
def Obligations.DecodeShortChecksInOrder : Prop :=
  (∀ b : Byte, (hexval? b).map (·.val) =
      if 0x30 ≤ b.toNat ∧ b.toNat ≤ 0x39 then some (b.toNat - 0x30)
      else if 0x41 ≤ b.toNat ∧ b.toNat ≤ 0x46 then some (b.toNat - 0x37)
      else if 0x61 ≤ b.toNat ∧ b.toNat ≤ 0x66 then some (b.toNat - 0x57) else none) ∧
  (∀ b : Byte, (digit? b).map (·.val) =
      if 0x30 ≤ b.toNat ∧ b.toNat ≤ 0x39 then some (b.toNat - 0x30) else none) ∧
  ∀ (f : Bytes) (s : State),
    (f.length ≤ s.params.maxFrameIn → f.length ≤ 255 →
      decodeRequest s.params (0x22 :: BitVec.ofNat 8 f.length :: f) = .ok (.decodeShort f)) ∧
    (f.length ≠ 14 →
      exec (.decodeShort f) s = .next (s.answered (.err .formatError ⟨1, 0, 0, 0xFF⟩))) ∧
    (f.length = 14 →
      let framed := f[0]? = some 0x02 ∧ f[9]? = some 0x03 ∧ f[12]? = some 0x0D ∧ f[13]? = some 0x0A
      let checked := ∃ x y : Fin 16, hexval? (f.getD 10 0) = some x ∧ hexval? (f.getD 11 0) = some y ∧
        16 * x.val + y.val = (bcc (slice f 1 9)).toNat
      (s.params.checkFraming = true → ¬ framed →
        exec (.decodeShort f) s = .next (s.answered (.err .formatError ⟨10, 0, 0, 0xFF⟩))) ∧
      ((s.params.checkFraming = false ∨ framed) → ¬ checked →
        exec (.decodeShort f) s = .next (s.answered (.err .checksumError ⟨0, 0, 0, 0xFF⟩))) ∧
      ((s.params.checkFraming = false ∨ framed) → checked →
        (digit? (f.getD 1 0) = none ∨ digit? (f.getD 2 0) = none →
          exec (.decodeShort f) s = .next (s.answered (.err .formatError ⟨6, 0, 0, 0xFF⟩))) ∧
        (∀ a b : Fin 10, digit? (f.getD 1 0) = some a → digit? (f.getD 2 0) = some b →
          ∃ h : Fin 100, h.val = 10 * a.val + b.val ∧
            exec (.decodeShort f) s =
              .next (s.answered (.ok (.short ⟨h, slice f 3 4, slice f 5 8⟩))))))

/-- R98 with R95 and R96: DECODE_LONG's checks in their order, and its result. A hexadecimal digit of the
BCC field is of either letter case, a head digit is decimal, and no other byte is one (R59, R95). -/
def Obligations.DecodeLongChecksInOrder : Prop :=
  (∀ b : Byte, (hexval? b).map (·.val) =
      if 0x30 ≤ b.toNat ∧ b.toNat ≤ 0x39 then some (b.toNat - 0x30)
      else if 0x41 ≤ b.toNat ∧ b.toNat ≤ 0x46 then some (b.toNat - 0x37)
      else if 0x61 ≤ b.toNat ∧ b.toNat ≤ 0x66 then some (b.toNat - 0x57) else none) ∧
  (∀ b : Byte, (digit? b).map (·.val) =
      if 0x30 ≤ b.toNat ∧ b.toNat ≤ 0x39 then some (b.toNat - 0x30) else none) ∧
  ∀ (f : Bytes) (s : State),
    (f.length ≤ s.params.maxFrameIn → f.length ≤ 255 →
      decodeRequest s.params (0x23 :: BitVec.ofNat 8 f.length :: f) = .ok (.decodeLong f)) ∧
    (f.length ≠ 32 →
      exec (.decodeLong f) s = .next (s.answered (.err .formatError ⟨1, 0, 0, 0xFF⟩))) ∧
    (f.length = 32 →
      let framed := f[0]? = some 0x02 ∧ f[27]? = some 0x03 ∧ f[30]? = some 0x0D ∧ f[31]? = some 0x0A
      let checked := ∃ x y : Fin 16, hexval? (f.getD 28 0) = some x ∧ hexval? (f.getD 29 0) = some y ∧
        16 * x.val + y.val = (bcc (slice f 1 27)).toNat
      (s.params.checkFraming = true → ¬ framed →
        exec (.decodeLong f) s = .next (s.answered (.err .formatError ⟨10, 0, 0, 0xFF⟩))) ∧
      ((s.params.checkFraming = false ∨ framed) → ¬ checked →
        exec (.decodeLong f) s = .next (s.answered (.err .checksumError ⟨0, 0, 0, 0xFF⟩))) ∧
      ((s.params.checkFraming = false ∨ framed) → checked →
        (digit? (f.getD 1 0) = none ∨ digit? (f.getD 2 0) = none →
          exec (.decodeLong f) s = .next (s.answered (.err .formatError ⟨6, 0, 0, 0xFF⟩))) ∧
        (∀ a b : Fin 10, digit? (f.getD 1 0) = some a → digit? (f.getD 2 0) = some b →
          (∀ m ∈ [slice f 9 14, slice f 15 20, slice f 21 26], ∃ d, decodeMeasurement m = .ok d) →
          ∃ (h : Fin 100) (d1 d2 d3 : Reading), h.val = 10 * a.val + b.val ∧
            decodeMeasurement (slice f 9 14) = .ok d1 ∧ decodeMeasurement (slice f 15 20) = .ok d2 ∧
            decodeMeasurement (slice f 21 26) = .ok d3 ∧
            exec (.decodeLong f) s =
              .next (s.answered (.ok (.long ⟨h, slice f 3 4, slice f 5 8, d1, d2, d3⟩)))) ∧
        (∀ a b : Fin 10, digit? (f.getD 1 0) = some a → digit? (f.getD 2 0) = some b →
          (∃ m ∈ [slice f 9 14, slice f 15 20, slice f 21 26], ∃ e, decodeMeasurement m = .error e) →
          exec (.decodeLong f) s = .next (s.answered (.err .formatError ⟨7, 0, 0, 0xFF⟩)))))

/-- R101: changing exactly one byte of the BCC span of a frame that decodes is always noticed: as
ChecksumError, or as BadFraming where CHECK_FRAMING examines the changed byte, the ETX position. -/
def Obligations.SingleByteChangesAreDetected : Prop :=
  ∀ (p : Params) (f : Bytes) (i : Nat) (b : Byte), f[i]? ≠ some b →
    (∀ r, decodeShort p f = .ok r → 1 ≤ i → i ≤ 9 →
      decodeShort p (f.set i b) =
        if p.checkFraming = true ∧ i = 9 then .error (.format .badFraming) else .error .checksum) ∧
    (∀ r, decodeLong p f = .ok r → 1 ≤ i → i ≤ 27 →
      decodeLong p (f.set i b) =
        if p.checkFraming = true ∧ i = 27 then .error (.format .badFraming) else .error .checksum)

/-- R102: a frame that decodes, with another BCC field, still decodes exactly when the new field spells
the same value in hexadecimal digits of either case, and is ChecksumError otherwise. Which bytes are
hexadecimal digits, and of which value, is said first (R59, R95). -/
def Obligations.CorruptedBccFieldIsDetected : Prop :=
  (∀ b : Byte, (hexval? b).map (·.val) =
      if 0x30 ≤ b.toNat ∧ b.toNat ≤ 0x39 then some (b.toNat - 0x30)
      else if 0x41 ≤ b.toNat ∧ b.toNat ≤ 0x46 then some (b.toNat - 0x37)
      else if 0x61 ≤ b.toNat ∧ b.toNat ≤ 0x66 then some (b.toNat - 0x57) else none) ∧
  ∀ (p : Params) (f : Bytes) (a b : Byte),
    (∀ r, decodeShort p f = .ok r →
      decodeShort p ((f.set 10 a).set 11 b) =
        if (hexval? a).isSome ∧ (hexval? b).isSome ∧
           (hexval? a).map (·.val) = (hexval? (f.getD 10 0)).map (·.val) ∧
           (hexval? b).map (·.val) = (hexval? (f.getD 11 0)).map (·.val)
        then .ok r else .error .checksum) ∧
    (∀ r, decodeLong p f = .ok r →
      decodeLong p ((f.set 28 a).set 29 b) =
        if (hexval? a).isSome ∧ (hexval? b).isSome ∧
           (hexval? a).map (·.val) = (hexval? (f.getD 28 0)).map (·.val) ∧
           (hexval? b).map (·.val) = (hexval? (f.getD 29 0)).map (·.val)
        then .ok r else .error .checksum)

/-- R110 with the tables of R111, R112 and R114: CLASSIFY_STATUS answers the class, fatal ones too, or
UnknownStatus, or BadLength. Positions 0 and 2 have no effect. -/
def Obligations.ClassifyStatusFollowsTheTables : Prop :=
  (∀ (p : Params) (status : Bytes), status.length ≤ 255 →
    decodeRequest p (0x24 :: BitVec.ofNat 8 status.length :: status) = .ok (.classifyStatus status)) ∧
  (∀ (status : Bytes) (s : State), status.length ≠ 4 →
    exec (.classifyStatus status) s = .next (s.answered (.err .formatError ⟨1, 0, 0, 0xFF⟩))) ∧
  (∀ (x e y b : Byte) (s : State),
    let errors : List (Byte × StatusError) := [(0x20, .ok), (0x37, .ok), (0x35, .overRange),
      (0x31, .powerHeadOff), (0x32, .eepromFault .one), (0x33, .eepromFault .two)]
    let batteries : List (Byte × Battery) :=
      [(0x30, .nominal), (0x32, .nominal), (0x31, .lowBattery), (0x33, .lowBattery)]
    (∀ err bat, (e, err) ∈ errors → (b, bat) ∈ batteries →
      exec (.classifyStatus [x, e, y, b]) s = .next (s.answered (.ok (.status ⟨err, bat⟩)))) ∧
    ((∀ err, (e, err) ∉ errors) ∨ (∀ bat, (b, bat) ∉ batteries) →
      exec (.classifyStatus [x, e, y, b]) s =
        .next (s.answered (.err .formatError ⟨8, 0, 0, 0xFF⟩))))

/-- R116 with R117 and R118: DECODE_MEASUREMENT. Exactly six spaces are Absent, only the sign byte `-`
negates, and a byte that is no digit in the digits or the exponent is NonDigitMeasurement. -/
def Obligations.DecodeMeasurementAnswersTheReading : Prop :=
  (∀ (p : Params) (m : Bytes), m.length ≤ 255 →
    decodeRequest p (0x25 :: BitVec.ofNat 8 m.length :: m) = .ok (.decodeMeasurement m)) ∧
  (∀ (m : Bytes) (s : State), m.length ≠ 6 →
    exec (.decodeMeasurement m) s = .next (s.answered (.err .formatError ⟨1, 0, 0, 0xFF⟩))) ∧
  (∀ s : State, exec (.decodeMeasurement [0x20, 0x20, 0x20, 0x20, 0x20, 0x20]) s =
    .next (s.answered (.ok (.reading .absent)))) ∧
  (∀ (g a b c d x : Byte) (s : State), [g, a, b, c, d, x] ≠ [0x20, 0x20, 0x20, 0x20, 0x20, 0x20] →
    (∃ y ∈ [a, b, c, d, x], y.toNat < 0x30 ∨ 0x39 < y.toNat) →
    exec (.decodeMeasurement [g, a, b, c, d, x]) s =
      .next (s.answered (.err .formatError ⟨7, 0, 0, 0xFF⟩))) ∧
  (∀ (g a b c d x : Byte) (s : State),
    (∀ y ∈ [a, b, c, d, x], 0x30 ≤ y.toNat ∧ y.toNat ≤ 0x39) →
    ∃ mantissa : Fin 10000,
      mantissa.val = 1000 * (a.toNat - 0x30) + 100 * (b.toNat - 0x30) + 10 * (c.toNat - 0x30)
        + (d.toNat - 0x30) ∧
      exec (.decodeMeasurement [g, a, b, c, d, x]) s =
        .next (s.answered (.ok (.reading (.present (decide (g = 0x2D)) mantissa
          ((x.toNat : Int) - 0x30 - 4))))))

/-- R119: the value of a reading that is not absent is the exact rational sign * digits * 10^(x-4); a
magnitude that is not zero lies between 1/10000 and 999900000, and both occur. -/
def Obligations.ReadingsAreExactRationals : Prop :=
  (∃ r, decodeMeasurement [0x20, 0x30, 0x30, 0x30, 0x31, 0x30] = .ok r ∧
    r.value = some (1 / 10000)) ∧
  (∃ r, decodeMeasurement [0x20, 0x39, 0x39, 0x39, 0x39, 0x39] = .ok r ∧
    r.value = some 999900000) ∧
  ∀ (m : Bytes) (neg : Bool) (mantissa : Fin 10000) (exp : Int),
    decodeMeasurement m = .ok (.present neg mantissa exp) →
    ∃ v : ℚ, (Reading.present neg mantissa exp).value = some v ∧
      v * 10000 = (if neg then -1 else 1) * mantissa.val * 10 ^ (exp + 4).toNat ∧
      -4 ≤ exp ∧ exp ≤ 5 ∧ (v ≠ 0 → 1 / 10000 ≤ |v|) ∧ |v| ≤ 999900000

/-- R122: `parseDecimal` accepts exactly the literals of the grammar, and its value is the rational that
the literal spells; every other string but lower-case "auto" is BadRangeSyntax. -/
def Obligations.RangeLiteralsFollowTheGrammar : Prop :=
  let digits : Bytes → Prop := fun ds => ds ≠ [] ∧ ∀ b ∈ ds, 0x30 ≤ b.toNat ∧ b.toNat ≤ 0x39
  let number : Bytes → Nat := fun ds => ds.foldl (fun acc b => 10 * acc + (b.toNat - 0x30)) 0
  let spells : Bytes → Bytes → Bytes → Bytes → Prop := fun r sign whole frac =>
    (sign = [] ∨ sign = [0x2B] ∨ sign = [0x2D]) ∧
    (r = sign ++ whole ∧ digits whole ∧ frac = [] ∨
     r = sign ++ whole ++ [0x2E] ++ frac ∧ digits whole ∧ (frac = [] ∨ digits frac) ∨
     r = sign ++ [0x2E] ++ frac ∧ whole = [] ∧ digits frac)
  (∀ r : Bytes, (parseDecimal r).isSome ↔ ∃ sign whole frac, spells r sign whole frac) ∧
  (∀ r sign whole frac d, spells r sign whole frac → parseDecimal r = some d →
    d.value = (if sign = [0x2D] then -1 else 1) *
      ((number whole : ℚ) + (number frac : ℚ) / 10 ^ frac.length)) ∧
  (∀ (p : Params) (r : Bytes), r ≠ [0x61, 0x75, 0x74, 0x6F] →
    (¬ ∃ sign whole frac, spells r sign whole frac) →
    selectRange p r = .error (.format .badRangeSyntax))

/-- R121, R123: SELECT_RANGE compares exact rationals with the band limits, each upper bound
inclusive; "auto" gives the sentinel; a value above the top band or below 0 is RangeError; every other
string is BadRangeSyntax. -/
def Obligations.SelectRangeFollowsTheBands : Prop :=
  ∀ (r : Bytes) (s : State),
    (r.length ≤ s.params.maxRangeLen → r.length ≤ 255 →
      decodeRequest s.params (0x26 :: BitVec.ofNat 8 r.length :: r) = .ok (.selectRange r)) ∧
    (r = [0x61, 0x75, 0x74, 0x6F] →
      exec (.selectRange r) s = .next (s.answered (.ok (.rangeCode s.params.rangeCodeAuto)))) ∧
    (r ≠ [0x61, 0x75, 0x74, 0x6F] → parseDecimal r = none →
      exec (.selectRange r) s = .next (s.answered (.err .formatError ⟨9, 0, 0, 0xFF⟩))) ∧
    (∀ d, r ≠ [0x61, 0x75, 0x74, 0x6F] → parseDecimal r = some d →
      exec (.selectRange r) s = .next (s.answered
        (if d.value < 0 then .err .rangeError ⟨0, 0, 0, 0xFF⟩
         else if d.value ≤ 29.99 then .ok (.rangeCode s.params.rangeCode1)
         else if d.value ≤ 299.9 then .ok (.rangeCode s.params.rangeCode2)
         else if d.value ≤ 2999 then .ok (.rangeCode s.params.rangeCode3)
         else if d.value ≤ 29999 then .ok (.rangeCode s.params.rangeCode4)
         else if d.value ≤ 299999 then .ok (.rangeCode s.params.rangeCode5)
         else .err .rangeError ⟨0, 0, 0, 0xFF⟩)))

/-- R125 with the layout of R68: PACK_READ_PARAM, whatever LIFECYCLE is; its errors are those of the
range. -/
def Obligations.PackReadParamLaysOutFourBytes : Prop :=
  ∀ (hold ccf : Bool) (r : Bytes) (s : State),
    (r.length ≤ s.params.maxRangeLen → r.length ≤ 255 →
      decodeRequest s.params ([0x27, if hold then 0x01 else 0x00, if ccf then 0x01 else 0x00,
        BitVec.ofNat 8 r.length] ++ r) = .ok (.packReadParam hold ccf r)) ∧
    (∀ rc, selectRange s.params r = .ok rc →
      exec (.packReadParam hold ccf r) s = .next (s.answered (.ok (.parameter
        [if hold then s.params.holdFlagOn else s.params.holdFlagOff,
         if ccf then s.params.ccfFlagOn else s.params.ccfFlagOff, rc, s.params.readPad])))) ∧
    (∀ e, selectRange s.params r = .error e →
      exec (.packReadParam hold ccf r) s = .next (s.answered (.err e.kind ⟨e.reason, 0, 0, 0xFF⟩)))

/-- R35 and the frame of the pure operations: each ends in the step that runs it, in every state, with
an outcome that only the parameters and the operands decide; nothing else changes. -/
def Obligations.PureOperationsWriteOnlyTheirOutcome : Prop :=
  ∀ i : Instr, isPure i → ∃ outcome : Params → OpOutcome,
    ∀ s : State, exec i s = .next (s.answered (outcome s.params))

/-- R137's start: in RawMode ENTER_REMOTE hands the mode-switch frame to the transport and changes no
session state; a frame that does not encode ends it before its `Send` (R93). The index 0 and the range
code 0 in CUR are the model's choice, log 15 (DESIGN CHOICE): R21 gives both to CONFIGURE_AND_READ only. -/
def Obligations.EnterRemoteSendsTheModeSwitch : Prop :=
  ∀ s : State, s.phase = .idle → s.lifecycle = .rawMode →
    (∀ f, encodeShort s.params.modeHead s.params.cmdMode s.params.paramRemote = .ok f →
      exec .enterRemote s = .next (s.started
        { request := .enterRemote, index := 0, rangeCode := 0, sentHead := s.params.modeHead,
          sentCommand := s.params.cmdMode, owe := none, failure := none } f)) ∧
    (∀ e, encodeShort s.params.modeHead s.params.cmdMode s.params.paramRemote = .error e →
      exec .enterRemote s =
        .next (s.answered (.err .formatError ⟨e.reason, 0, 0, s.params.modeHead⟩)))

/-- R138: the echo check, head before command before parameter, on a reply that decodes. A mismatch
waits for the owed settle with LIFECYCLE unchanged; a right echo makes LIFECYCLE RemoteMode. A reply that
does not decode reports the decoder's error. -/
def Obligations.EnterRemoteChecksTheEcho : Prop :=
  ∀ (s : State) (c : OpContext) (b : Bytes) (rest : List RecvAnswer),
    s.phase = .awaitRecv .short → s.cur = some c → s.recvAnswers = .bytes b :: rest →
    c.sentHead = s.params.modeHead → c.sentCommand = s.params.cmdMode → c.owe = some .mode →
    (∀ e, b.length = 14 → decodeShort s.params b = .error e →
      exec .enterRemote s = .next ((s.replyTaken b rest).settlingFor .mode c e)) ∧
    (∀ r, decodeShort s.params b = .ok r →
      (r.head.val ≠ s.params.modeHead.toNat →
        exec .enterRemote s =
          .next ((s.replyTaken b rest).settlingFor .mode c (.protocol .headMismatch))) ∧
      (r.head.val = s.params.modeHead.toNat → r.command ≠ s.params.cmdMode →
        exec .enterRemote s =
          .next ((s.replyTaken b rest).settlingFor .mode c (.protocol .commandMismatch))) ∧
      (r.head.val = s.params.modeHead.toNat → r.command = s.params.cmdMode →
        r.parameter ≠ [0x20, 0x20, 0x20, 0x20] →
        exec .enterRemote s =
          .next ((s.replyTaken b rest).settlingFor .mode c (.protocol .parameterNotEmpty))) ∧
      (r.head.val = s.params.modeHead.toNat → r.command = s.params.cmdMode →
        r.parameter = [0x20, 0x20, 0x20, 0x20] →
        exec .enterRemote s =
          .next { s.replyTaken b rest with
                  lifecycle := .remoteMode, settlePending := true, phase := .awaitSettle .mode }))

/-- R137, the whole operation from its request to its outcome: accepted, sent, echoed and settled in
four steps, it leaves RemoteMode and `Ok`, and nothing else but the buffers, the streams and RESULTS has
changed. That these are four steps is the model's choice of step boundaries, logs 4 and 19 (DEDUCED): the
settle elapses in the step after it began, and acceptance and completion take no step of their own. -/
def Obligations.EnterRemoteRunsToRemoteMode : Prop :=
  ∀ (s : State) (request f echo : Bytes) (requests : List Bytes) (sends : List SendAnswer)
    (receives : List RecvAnswer),
    s.resetInput = false → s.phase = .idle → s.settlePending = false → s.lifecycle = .rawMode →
    s.hostPort = request :: requests → request = [0x10] →
    s.sendAnswers = .count 14 :: sends → s.recvAnswers = .bytes echo :: receives →
    encodeShort s.params.modeHead s.params.cmdMode s.params.paramRemote = .ok f →
    (∃ r, decodeShort s.params echo = .ok r ∧ r.head.val = s.params.modeHead.toNat ∧
      r.command = s.params.cmdMode ∧ r.parameter = [0x20, 0x20, 0x20, 0x20]) →
    Host.Core.run Sys2Proof.core 4 s =
      .next { s with
        lifecycle := .remoteMode, cur := none, results := [], outcome := some (.ok .none),
        hostPort := requests, sendAnswers := sends, recvAnswers := receives, txBuf := some f,
        rxBuf := some echo, txStream := s.txStream ++ f }

/-- R177: every transport failure of a device operation, at a send or at a receive, with its reason; the
session ends at once, with the index and head of the frame. -/
def Obligations.TransportFailuresEndTheSession : Prop :=
  (∀ (i : Instr) (s : State) (c : OpContext) (a : SendAnswer) (rest : List SendAnswer),
    isDevice i = true → s.phase = .awaitSend → s.cur = some c → s.sendAnswers = a :: rest →
    (a = .error ∨ (∃ n, a = .count n ∧ n < 0) →
      exec i s = .next ((s.sendTaken rest).sessionLost.ended
        (.err .transportError ⟨1, 0, c.index, c.sentHead⟩))) ∧
    (∀ n, a = .count n → 0 ≤ n → n < 14 →
      exec i s = .next ((s.sendTaken rest).sessionLost.ended
        (.err .transportError ⟨2, 0, c.index, c.sentHead⟩))) ∧
    (∀ n, a = .count n → 14 < n →
      exec i s = .next ((s.sendTaken rest).sessionLost.ended
        (.err .transportError ⟨3, 0, c.index, c.sentHead⟩)))) ∧
  (∀ (i : Instr) (n : ReplyKind) (s : State) (c : OpContext) (a : RecvAnswer) (rest : List RecvAnswer),
    replyKindOf i = some n → s.phase = .awaitRecv n → s.cur = some c → s.recvAnswers = a :: rest →
    (a = .error ∨ ∃ b, a = .bytes b ∧ b.length ≠ (match n with | .short => 14 | .long => 32)) →
    exec i s = .next ({ s with recvAnswers := rest }.sessionLost.ended
      (.err .transportError ⟨4, 0, c.index, c.sentHead⟩)))

/-- R131, R132: after a send answered 14, ENTER_REMOTE and CONFIGURE_AND_READ owe their settle and wait
for a reply of 14 and of 32 bytes. -/
def Obligations.GoodSendsAskForTheReply : Prop :=
  ∀ (s : State) (c : OpContext) (rest : List SendAnswer),
    s.phase = .awaitSend → s.cur = some c → s.sendAnswers = .count 14 :: rest →
    exec .enterRemote s = .next { s.sendTaken rest with
      cur := some { c with owe := some .mode }, phase := .awaitRecv .short } ∧
    ∀ heads hold ccf range, exec (.configureAndRead heads hold ccf range) s = .next { s.sendTaken rest with
      cur := some { c with owe := some .read }, phase := .awaitRecv .long }

/-- R133 with R180 steps 3 and 4: the end of a settle clears SETTLE_PENDING; an operation that had
failed delivers its error, ENTER_REMOTE and SET_HOLD otherwise complete with `Ok`. -/
def Obligations.ElapsedSettleDelivers : Prop :=
  ∀ (i : Instr) (s : State) (c : OpContext) (kind : SettleKind),
    settleKindOf i = some kind → s.phase = .awaitSettle kind → s.cur = some c →
    (∀ g, c.failure = some g →
      exec i s = .next ({ s with settlePending := false }.ended (.err g.kind g.info))) ∧
    (c.failure = none → (∀ heads hold ccf range, i ≠ .configureAndRead heads hold ccf range) →
      exec i s = .next ({ s with settlePending := false }.ended (.ok .none)))

/-- R124: a range error of CONFIGURE_AND_READ ends it before any frame, with nothing sent and nothing
changed but RESULTS (R26), the index 0 and no head. -/
def Obligations.RangeIsCheckedBeforeAnyFrame : Prop :=
  ∀ (heads : List Byte) (hold ccf : Bool) (range : Bytes) (s : State) (e : Raised),
    s.phase = .idle → s.lifecycle = .remoteMode → selectRange s.params range = .error e →
    exec (.configureAndRead heads hold ccf range) s =
      .next (s.answered (.err e.kind ⟨e.reason, 0, 0, 0xFF⟩)) ∧
    (e = .range ∨ e = .format .badRangeSyntax)

/-- R139's start: an empty list completes at once; otherwise the frame to the first head is sent, or its
encoder error is reported with index 0 and that head. -/
def Obligations.ConfigureAndReadAddressesTheFirstHead : Prop :=
  ∀ (hold ccf : Bool) (range : Bytes) (rc : Byte) (s : State),
    s.phase = .idle → s.lifecycle = .remoteMode → selectRange s.params range = .ok rc →
    let param := [if hold then s.params.holdFlagOn else s.params.holdFlagOff,
      if ccf then s.params.ccfFlagOn else s.params.ccfFlagOff, rc, s.params.readPad]
    exec (.configureAndRead [] hold ccf range) s = .next (s.answered (.ok .none)) ∧
    ∀ (h : Byte) (more : List Byte),
      (∀ f, encodeShort h s.params.cmdRead param = .ok f →
        exec (.configureAndRead (h :: more) hold ccf range) s = .next (s.started
          { request := .configureAndRead (h :: more) hold ccf range, index := 0, rangeCode := rc,
            sentHead := h, sentCommand := s.params.cmdRead, owe := none, failure := none } f)) ∧
      (∀ e, encodeShort h s.params.cmdRead param = .error e →
        exec (.configureAndRead (h :: more) hold ccf range) s =
          .next (s.answered (.err .formatError ⟨e.reason, 0, 0, h⟩)))

/-- R140, steps 4 to 8 on a reply that is not fatal: an undecodable frame, an unknown status and a wrong
head wait for the settle; otherwise the record is emitted with its readings unchanged, OverRange and
LowBattery too (R115), and the settle begins. LIFECYCLE and HELD never change. -/
def Obligations.ConfigureAndReadJudgesTheReply : Prop :=
  ∀ (heads : List Byte) (hold ccf : Bool) (range : Bytes) (s : State) (c : OpContext) (b : Bytes)
    (rest : List RecvAnswer),
    s.phase = .awaitRecv .long → s.cur = some c → s.recvAnswers = .bytes b :: rest →
    b.length = 32 → c.owe = some .read →
    let after := s.replyTaken b rest
    let i := Instr.configureAndRead heads hold ccf range
    (∀ e, decodeLong s.params b = .error e → exec i s = .next (after.settlingFor .read c e)) ∧
    (∀ r, decodeLong s.params b = .ok r →
      (∀ e, classifyStatus r.status = .error e → exec i s = .next (after.settlingFor .read c e)) ∧
      (∀ err bat st, classifyStatus r.status = .ok ⟨err, bat⟩ →
        (err = .ok ∧ st = RecordStatus.ok ∨ err = .overRange ∧ st = RecordStatus.overRange) →
        (r.head.val ≠ c.sentHead.toNat →
          exec i s = .next (after.settlingFor .read c (.protocol .headMismatch))) ∧
        (r.head.val = c.sentHead.toNat →
          exec i s = .next { after with
            results := s.results ++ [⟨c.index, r.head, st, bat, r.d1, r.d2, r.d3⟩],
            settlePending := true, phase := .awaitSettle .read })))

/-- R175, R176: a reply with a fatal status ends the session at once, whatever head it echoes, yields no
record, and reports the variant, the index and the head. -/
def Obligations.FatalStatusEndsTheSession : Prop :=
  ∀ (heads : List Byte) (hold ccf : Bool) (range : Bytes) (s : State) (c : OpContext) (b : Bytes)
    (rest : List RecvAnswer) (r : LongFields) (bat : Battery),
    s.phase = .awaitRecv .long → s.cur = some c → s.recvAnswers = .bytes b :: rest →
    decodeLong s.params b = .ok r → batteryPosition (r.status.getD 3 0) = some bat →
    let i := Instr.configureAndRead heads hold ccf range
    let after := (s.replyTaken b rest).sessionLost
    (r.status[1]? = some 0x31 →
      exec i s = .next (after.ended (.err .powerHeadOff ⟨0, 0, c.index, c.sentHead⟩))) ∧
    (r.status[1]? = some 0x32 →
      exec i s = .next (after.ended (.err .eepromFault ⟨0, 1, c.index, c.sentHead⟩))) ∧
    (r.status[1]? = some 0x33 →
      exec i s = .next (after.ended (.err .eepromFault ⟨0, 2, c.index, c.sentHead⟩)))

/-- R139's loop: after the settle of head K the frame to head K+1 is sent; a head above 99 ends the
operation without a settle of its own, with its index and value; after the last head the operation is
`Ok`. The records stand. -/
def Obligations.ConfigureAndReadServesTheNextHead : Prop :=
  ∀ (heads : List Byte) (hold ccf : Bool) (range : Bytes) (s : State) (c : OpContext),
    s.phase = .awaitSettle .read → s.cur = some c → c.failure = none →
    let i := Instr.configureAndRead heads hold ccf range
    let param := [if hold then s.params.holdFlagOn else s.params.holdFlagOff,
      if ccf then s.params.ccfFlagOn else s.params.ccfFlagOff, c.rangeCode, s.params.readPad]
    (heads.length ≤ c.index + 1 →
      exec i s = .next ({ s with settlePending := false }.ended (.ok .none))) ∧
    (∀ h, heads[c.index + 1]? = some h →
      (∀ f, encodeShort h s.params.cmdRead param = .ok f →
        exec i s = .next { s with
          settlePending := false, phase := .awaitSend, txBuf := some f, txStream := s.txStream ++ f,
          cur := some { request := i, index := c.index + 1, rangeCode := c.rangeCode, sentHead := h,
                        sentCommand := s.params.cmdRead, owe := none, failure := none } }) ∧
      (99 < h.toNat →
        exec i s = .next ({ s with settlePending := false }.ended
          (.err .formatError ⟨2, 0, c.index + 1, h⟩))))

/-- R139, R141, the whole operation: over any list of heads whose exchanges all go well, it sends one
frame per head in the order given, emits one record per head in that order, and ends in `Ok` after the
last settle; LIFECYCLE and HELD are as before. The number of steps, 1 and 3 for each head, is the model's
choice of step boundaries, logs 4 and 19 (DEDUCED). -/
def Obligations.ConfigureAndReadServesEveryHead : Prop :=
  ∀ (s : State) (request range : Bytes) (hold ccf : Bool) (rc : Byte) (xs : List Exchange)
    (requests : List Bytes) (sends : List SendAnswer) (receives : List RecvAnswer),
    s.resetInput = false → s.phase = .idle → s.settlePending = false → s.lifecycle = .remoteMode →
    s.hostPort = request :: requests →
    decodeRequest s.params request = .ok (.configureAndRead (xs.map (·.head)) hold ccf range) →
    selectRange s.params range = .ok rc →
    s.sendAnswers = List.replicate xs.length (.count 14) ++ sends →
    s.recvAnswers = xs.map (fun x => .bytes x.reply) ++ receives →
    (∀ (k : Nat) (x : Exchange), xs[k]? = some x → x.good s.params
      [if hold then s.params.holdFlagOn else s.params.holdFlagOff,
       if ccf then s.params.ccfFlagOn else s.params.ccfFlagOff, rc, s.params.readPad] k) →
    Host.Core.run Sys2Proof.core (1 + 3 * xs.length) s =
      .next { s with
        cur := none, results := xs.map (·.record), outcome := some (.ok .none),
        hostPort := requests, sendAnswers := sends, recvAnswers := receives,
        txBuf := (xs.getLast?.map (·.frame)).or s.txBuf,
        rxBuf := (xs.getLast?.map (·.reply)).or s.rxBuf,
        txStream := s.txStream ++ (xs.map (·.frame)).flatten }

/-- R142: SET_HOLD, from its frame to HOLD_HEAD to HELD, with and without the reply that
HOLD_EXPECTS_REPLY asks for. HELD is set to the flag, not inverted. The index 0 and the range code 0 in
CUR are the model's choice, log 15 (DESIGN CHOICE): R21 gives both to CONFIGURE_AND_READ only. -/
def Obligations.SetHoldSetsTheFlag : Prop :=
  ∀ (flag : Bool) (s : State),
    let i := Instr.setHold flag
    let param := if flag then s.params.holdParamOn else s.params.holdParamOff
    let flagged : HeldState := if flag then .held else .running
    (∀ f, s.phase = .idle → s.lifecycle = .remoteMode →
      encodeShort s.params.holdHead s.params.cmdHold param = .ok f →
      exec i s = .next (s.started
        { request := i, index := 0, rangeCode := 0, sentHead := s.params.holdHead,
          sentCommand := s.params.cmdHold, owe := none, failure := none } f)) ∧
    (∀ e, s.phase = .idle → s.lifecycle = .remoteMode →
      encodeShort s.params.holdHead s.params.cmdHold param = .error e →
      exec i s = .next (s.answered (.err .formatError ⟨e.reason, 0, 0, s.params.holdHead⟩))) ∧
    (∀ c rest, s.phase = .awaitSend → s.cur = some c → s.sendAnswers = .count 14 :: rest →
      (s.params.holdExpectsReply = false →
        exec i s = .next { s.sendTaken rest with
          held := flagged, cur := some { c with owe := some .hold }, settlePending := true,
          phase := .awaitSettle .hold }) ∧
      (s.params.holdExpectsReply = true →
        exec i s = .next { s.sendTaken rest with
          cur := some { c with owe := some .hold }, phase := .awaitRecv .short })) ∧
    (∀ c b rest, s.phase = .awaitRecv .short → s.cur = some c → s.recvAnswers = .bytes b :: rest →
      c.owe = some .hold →
      (∀ r, decodeShort s.params b = .ok r →
        exec i s = .next { s.replyTaken b rest with
          held := flagged, settlePending := true, phase := .awaitSettle .hold }) ∧
      (∀ e, b.length = 14 → decodeShort s.params b = .error e →
        exec i s = .next ((s.replyTaken b rest).settlingFor .hold c e)))

/-- R143: CLEAR_INTEGRATED, its frame to one head, every encoder error ending it before the send (R93), a
head above 99 among them, and `Ok` as soon as the transport takes 14 bytes: no reply, no settle, no
session state written. The index 0 and the range code 0 in CUR are the model's choice, log 15 (DESIGN CHOICE):
R21 gives both to CONFIGURE_AND_READ only. -/
def Obligations.ClearIntegratedEndsWithItsSend : Prop :=
  ∀ (head : Byte) (s : State),
    let i := Instr.clearIntegrated head
    (∀ f, s.phase = .idle → s.lifecycle = .remoteMode →
      encodeShort head s.params.cmdClear s.params.clearParam = .ok f →
      exec i s = .next (s.started
        { request := i, index := 0, rangeCode := 0, sentHead := head,
          sentCommand := s.params.cmdClear, owe := none, failure := none } f)) ∧
    (∀ e, s.phase = .idle → s.lifecycle = .remoteMode →
      encodeShort head s.params.cmdClear s.params.clearParam = .error e →
      exec i s = .next (s.answered (.err .formatError ⟨e.reason, 0, 0, head⟩))) ∧
    (s.phase = .idle → s.lifecycle = .remoteMode → s.params.clearParam.length = 4 → 99 < head.toNat →
      exec i s = .next (s.answered (.err .formatError ⟨2, 0, 0, head⟩))) ∧
    (∀ c rest, s.phase = .awaitSend → s.cur = some c → s.sendAnswers = .count 14 :: rest →
      exec i s = .next ((s.sendTaken rest).ended (.ok .none)))

/-- R147: under the premise that the parameters have their types, the frames of ENTER_REMOTE and SET_HOLD
always encode, and those of the per-receptor operations exactly for heads up to 99. -/
def Obligations.TypedParametersAlwaysFrame : Prop :=
  ∀ p : Params, p.wellTyped = true →
    (∃ f, encodeShort p.modeHead p.cmdMode p.paramRemote = .ok f) ∧
    (∀ flag : Bool, ∃ f,
      encodeShort p.holdHead p.cmdHold (if flag then p.holdParamOn else p.holdParamOff) = .ok f) ∧
    (∀ h : Byte,
      (h.toNat ≤ 99 → ∃ f, encodeShort h p.cmdClear p.clearParam = .ok f) ∧
      (99 < h.toNat → encodeShort h p.cmdClear p.clearParam = .error (.format .headOutOfRange))) ∧
    (∀ (h : Byte) (hold ccf : Bool) (range param : Bytes), packReadParam p hold ccf range = .ok param →
      (h.toNat ≤ 99 → ∃ f, encodeShort h p.cmdRead param = .ok f) ∧
      (99 < h.toNat → encodeShort h p.cmdRead param = .error (.format .headOutOfRange)))

/-- R180, R181: error entry. The session ends for PowerHeadOff, EepromFault and TransportError; another
kind waits for an owed settle, and is delivered at once where none is owed; RESULTS and the streams are
never touched. -/
def Obligations.ErrorEntryFollowsItsSteps : Prop :=
  ∀ (e : Raised) (index : Nat) (head : Byte) (s : State),
    let info : ErrInfo := ⟨e.reason, e.variant, index, head⟩
    ((e = .powerHeadOff ∨ (∃ v, e = .eeprom v) ∨ ∃ r, e = .transport r) →
      s.raise e index head = s.sessionLost.ended (.err e.kind info)) ∧
    (¬ (e = .powerHeadOff ∨ (∃ v, e = .eeprom v) ∨ ∃ r, e = .transport r) →
      (∀ c kind, s.cur = some c → c.owe = some kind →
        s.raise e index head = { s with
          cur := some { c with failure := some ⟨e.kind, info⟩ }, settlePending := true,
          phase := .awaitSettle kind }) ∧
      ((∀ c kind, s.cur = some c → c.owe ≠ some kind) →
        s.raise e index head = s.ended (.err e.kind info)))

/-- A step at an idle engine runs the decoded request (R54, R74): with a well-formed operation at the
port, the step is `exec` of that operation on the state with the request taken off. -/
def Obligations.StepRunsTheDecodedRequest : Prop :=
  ∀ (s : State) (request : Bytes) (requests : List Bytes) (i : Instr),
    s.resetInput = false → s.phase = .idle → s.hostPort = request :: requests →
    decodeRequest s.params request = .ok i → i.wellFormed s.params = true →
    step s = exec i { s with hostPort := requests }

/-- A step at a busy engine resumes the device operation in CUR (R20, R21). -/
def Obligations.StepResumesTheOperation : Prop :=
  ∀ (s : State) (c : OpContext),
    s.resetInput = false → s.phase ≠ .idle → s.cur = some c → isDevice c.request = true →
    step s = exec c.request s

/-- R78, R179: a request with a reserved opcode ends in IllegalOp, code 9, whatever bytes follow; no byte
is sent, and nothing changes but RESULTS, which the acceptance of every request clears (R26; log 8). -/
def Obligations.ReservedOpcodesAreIllegal : Prop :=
  ErrorKind.illegalOp.code = 9 ∧
  ∀ (s : State) (opcode : Byte) (operands : Bytes) (requests : List Bytes),
    s.resetInput = false → s.phase = .idle → s.hostPort = (opcode :: operands) :: requests →
    (opcode.toNat = 0x00 ∨ (0x04 ≤ opcode.toNat ∧ opcode.toNat ≤ 0x0F) ∨
      (0x14 ≤ opcode.toNat ∧ opcode.toNat ≤ 0x1F) ∨ 0x28 ≤ opcode.toNat) →
    step s = .next ({ s with hostPort := requests }.answered (.err .illegalOp ⟨0, 0, 0, 0xFF⟩))

/-- R74, R182: a request that does not decode is turned away before legality is looked at, and nothing
changes but the outcome and RESULTS, which the acceptance of every request clears (R26). That a request
turned away counts as accepted is the model's choice, log 8 (DEDUCED). -/
def Obligations.MalformedRequestsAreTurnedAway : Prop :=
  ∀ (s : State) (request : Bytes) (requests : List Bytes) (reason : FormatReason),
    s.resetInput = false → s.phase = .idle → s.hostPort = request :: requests →
    decodeRequest s.params request = .error (.format reason) →
    step s = .next ({ s with hostPort := requests }.answered
      (.err .formatError ⟨reason.code, 0, 0, 0xFF⟩))

/-- R74: a request with bytes left after the last operand, or cut short, is BadOperand. A bool byte other
than 0x00 and 0x01 is BadOperand: the flag of SET_HOLD, hold and ccf of CONFIGURE_AND_READ and
PACK_READ_PARAM. A head list above MAX_HEADS is TooManyHeads. A range above MAX_RANGE_LEN in each of the
three operations that have one, a span above MAX_BCC_SPAN, and a frame above MAX_FRAME_IN in both decode
operations are BadLength. -/
def Obligations.RequestFormatIsChecked : Prop :=
  ∀ p : Params,
    (∀ (i : Instr) (b : Byte) (more : Bytes), i.wellFormed p = true →
      decodeRequest p (encode i ++ b :: more) = .error (.format .badOperand)) ∧
    (∀ (i : Instr) (n : Nat), i.wellFormed p = true → 1 ≤ n → n < (encode i).length →
      decodeRequest p ((encode i).take n) = .error (.format .badOperand)) ∧
    (∀ b : Byte, b ≠ 0x00 → b ≠ 0x01 → decodeRequest p [0x12, b] = .error (.format .badOperand)) ∧
    (∀ (heads : List Byte) (h c : Byte) (range : Bytes),
      fits p.maxHeads heads = true → fits p.maxRangeLen range = true →
      (h ≠ 0x00 ∧ h ≠ 0x01) ∨ (c ≠ 0x00 ∧ c ≠ 0x01) →
      decodeRequest p ([0x11, BitVec.ofNat 8 heads.length] ++ heads ++
        [h, c, BitVec.ofNat 8 range.length] ++ range) = .error (.format .badOperand)) ∧
    (∀ (h c : Byte) (range : Bytes), fits p.maxRangeLen range = true →
      (h ≠ 0x00 ∧ h ≠ 0x01) ∨ (c ≠ 0x00 ∧ c ≠ 0x01) →
      decodeRequest p ([0x27, h, c, BitVec.ofNat 8 range.length] ++ range) =
        .error (.format .badOperand)) ∧
    (∀ (heads : List Byte) (hold ccf : Bool) (range : Bytes), p.maxHeads < heads.length →
      heads.length ≤ 255 → fits p.maxRangeLen range = true →
      decodeRequest p (encode (.configureAndRead heads hold ccf range)) =
        .error (.format .tooManyHeads)) ∧
    (∀ range : Bytes, p.maxRangeLen < range.length → range.length ≤ 255 →
      decodeRequest p (encode (.selectRange range)) = .error (.format .badLength) ∧
      ∀ hold ccf : Bool,
        decodeRequest p (encode (.packReadParam hold ccf range)) = .error (.format .badLength) ∧
        ∀ heads : List Byte, fits p.maxHeads heads = true →
          decodeRequest p (encode (.configureAndRead heads hold ccf range)) =
            .error (.format .badLength)) ∧
    (∀ span : Bytes, p.maxBccSpan < span.length → span.length ≤ 255 →
      decodeRequest p (encode (.computeBcc span)) = .error (.format .badLength)) ∧
    (∀ frame : Bytes, p.maxFrameIn < frame.length → frame.length ≤ 255 →
      decodeRequest p (encode (.decodeShort frame)) = .error (.format .badLength) ∧
      decodeRequest p (encode (.decodeLong frame)) = .error (.format .badLength))

/-- A few requests written out from R74 and R76 decode to the operation they stand for. -/
def Obligations.SampleRequestsDecode : Prop :=
  ∀ p : Params, 1 ≤ p.maxHeads → 8 ≤ p.maxRangeLen → 27 ≤ p.maxBccSpan →
    decodeRequest p [0x03] = .ok .readState ∧
    decodeRequest p [0x11, 0x01, 0x01, 0x00, 0x00, 0x04, 0x61, 0x75, 0x74, 0x6F] =
      .ok (.configureAndRead [0x01] false false [0x61, 0x75, 0x74, 0x6F]) ∧
    decodeRequest p [0x12, 0x01] = .ok (.setHold true) ∧
    decodeRequest p [0x13, 0x64] = .ok (.clearIntegrated 0x64) ∧
    decodeRequest p [0x20, 0x02, 0x41, 0x42] = .ok (.computeBcc [0x41, 0x42]) ∧
    decodeRequest p [0x21, 0x07, 0x02, 0x31, 0x30, 0x04, 0x31, 0x33, 0x35, 0x31] =
      .ok (.encodeShort 0x07 [0x31, 0x30] [0x31, 0x33, 0x35, 0x31])

/-- Decode and encode agree for every well-formed operation, every operand at every value its encoding
admits (R74, R76). -/
def Obligations.DecodeOfEncodeIsTheOperation : Prop :=
  ∀ (p : Params) (i : Instr), i.wellFormed p = true → decodeRequest p (encode i) = .ok i

/-- The other direction: a request that decodes is the encoding of the operation it decodes to, which is
well formed, so no two requests have one meaning (R74, R76). -/
def Obligations.DecodedRequestIsTheEncoding : Prop :=
  ∀ (p : Params) (request : Bytes) (i : Instr), decodeRequest p request = .ok i →
    encode i = request ∧ i.wellFormed p = true

/-- R206: a wait without an answer changes nothing, step after step; an idle engine without a request
waits too. The waiting step is the model's form of a step that is not enabled (log 3). -/
def Obligations.WaitsWithoutAnAnswerChangeNothing : Prop :=
  ∀ s : State, s.resetInput = false →
    (s.phase = .idle → s.hostPort = [] → step s = .next s) ∧
    (∀ c, s.phase = .awaitSend → s.cur = some c → isDevice c.request = true → s.sendAnswers = [] →
      step s = .next s) ∧
    (∀ c n, s.phase = .awaitRecv n → s.cur = some c → replyKindOf c.request = some n →
      s.recvAnswers = [] → step s = .next s)

/-- R201: the reset input is taken in any phase; every piece of engine state is at its reset value and no
outcome is delivered. That the parameters, the queues and the TX stream stay is the model's choice (log
5). -/
def Obligations.ResetIsTakenInAnyPhase : Prop :=
  ∀ s : State, s.resetInput = true →
    step s = .next { State.reset with
      params := s.params, hostPort := s.hostPort, sendAnswers := s.sendAnswers,
      recvAnswers := s.recvAnswers, txStream := s.txStream }

/-- R54: a busy engine does not see its request port: a request issued meanwhile only waits, whatever
the step does, reset apart (what a waiting request meets there is log 5). That such a request waits in a
queue, and is not lost, is the model's choice, log 2 (DESIGN CHOICE). -/
def Obligations.BusyEngineLeavesRequestsWaiting : Prop :=
  ∀ (s : State) (request : Bytes), s.resetInput = false → s.phase ≠ .idle →
    step (s.issue request) =
      match step s with
      | .next t => .next (t.issue request)
      | .fault r => .fault r
      | .refused r => .refused r

/-- R16: the reset value of LIFECYCLE, and what can change it in a step, apart from reset: ATTACH,
DETACH, a reply to ENTER_REMOTE that decodes and echoes the head and command of the frame sent with four
spaces as its parameter, and error entry for a fatal kind. -/
def Obligations.OnlyFourRulesWriteLifecycle : Prop :=
  State.reset.lifecycle = .disconnected ∧
  ∀ s t : State, s.resetInput = false → step s = .next t → t.lifecycle ≠ s.lifecycle →
    (s.phase = .idle ∧ s.lifecycle = .disconnected ∧ t.lifecycle = .rawMode ∧
      s.hostPort.head? = some (encode .attach)) ∨
    (s.phase = .idle ∧ t.lifecycle = .disconnected ∧ s.hostPort.head? = some (encode .detach)) ∨
    (s.phase = .awaitRecv .short ∧ t.lifecycle = .remoteMode ∧ t.phase = .awaitSettle .mode ∧
      ∃ c b rest r, s.cur = some c ∧ c.request = .enterRemote ∧ s.recvAnswers = .bytes b :: rest ∧
        decodeShort s.params b = .ok r ∧ r.head.val = c.sentHead.toNat ∧ r.command = c.sentCommand ∧
        r.parameter = [0x20, 0x20, 0x20, 0x20]) ∨
    (t.lifecycle = .disconnected ∧ ∃ kind info, t.outcome = some (.err kind info) ∧
      (kind = .powerHeadOff ∨ kind = .eepromFault ∨ kind = .transportError))

/-- R18: HELD is written by a successful SET_HOLD, with its flag, and by entry to Disconnected, with
Unknown, and nowhere else; every entry to Disconnected writes it. SET_HOLD is successful where its send is
answered 14 and no reply is expected, or its reply decodes (R142). -/
def Obligations.OnlySetHoldAndDisconnectWriteHeld : Prop :=
  State.reset.held = .unknown ∧
  ∀ s t : State, step s = .next t →
    (t.held ≠ s.held →
      (t.lifecycle = .disconnected ∧ t.held = .unknown) ∨
      (∃ c flag, s.cur = some c ∧ c.request = .setHold flag ∧
        t.held = (if flag then .held else .running) ∧ t.phase = .awaitSettle .hold ∧
        ((s.phase = .awaitSend ∧ s.params.holdExpectsReply = false ∧
            ∃ rest, s.sendAnswers = .count 14 :: rest) ∨
          (s.phase = .awaitRecv .short ∧ ∃ b rest r, s.recvAnswers = .bytes b :: rest ∧
            decodeShort s.params b = .ok r)))) ∧
    (s.lifecycle ≠ .disconnected → t.lifecycle = .disconnected → t.held = .unknown)

/-- R46: a step hands the transport nothing, or exactly one whole frame of 14 bytes that stands in TXBUF
while the engine waits for its count; and RXBUF takes only whole replies: 32 bytes for
CONFIGURE_AND_READ, 14 for the others. -/
def Obligations.StepsMoveWholeFrames : Prop :=
  ∀ s t : State, s.resetInput = false → step s = .next t →
    (t.txStream = s.txStream ∧ t.txBuf = s.txBuf ∨
      ∃ f, f.length = 14 ∧ t.txStream = s.txStream ++ f ∧ t.txBuf = some f ∧ t.phase = .awaitSend) ∧
    (t.rxBuf = s.rxBuf ∨
      ∃ b n c, s.phase = .awaitRecv n ∧ s.cur = some c ∧
        n = (match c.request with | .configureAndRead _ _ _ _ => .long | _ => .short) ∧
        t.rxBuf = some b ∧ b.length = (match n with | .short => 14 | .long => 32))

/-- R53: while a settle is pending no frame is sent and no outcome delivered. -/
def Obligations.NothingIsSentWhileSettling : Prop :=
  ∀ s t : State, s.sessionInv → step s = .next t → t.settlePending = true →
    t.phase.settling = true ∧ t.txStream = s.txStream ∧ t.outcome = s.outcome

/-- R26, R141: RESULTS grows by at most one record in a step; it is cleared only by the acceptance of a
request or by reset, so an error never withdraws a record. -/
def Obligations.RecordsStandOnceEmitted : Prop :=
  ∀ s t : State, s.resetInput = false → step s = .next t → s.phase ≠ .idle →
    t.results = s.results ∨ ∃ r, t.results = s.results ++ [r] ∧ t.phase = .awaitSettle .read

/-- R15: the parameters are fixed for the engine's lifetime: no step writes them. -/
def Obligations.StepsKeepTheParameters : Prop :=
  ∀ s t : State, step s = .next t → t.params = s.params

/-- R33 holds at reset. -/
def Obligations.SessionInvariantAtReset : Prop := State.reset.sessionInv

/-- R33 (I1) to (I4): every step keeps them, from every state that has them. -/
def Obligations.StepsKeepTheSessionInvariant : Prop :=
  ∀ s t : State, s.sessionInv → step s = .next t → t.sessionInv

/-- Reset is consistent: R33 holds and CUR fits PHASE. -/
def Obligations.ConsistencyAtReset : Prop := State.reset.consistent

/-- From every consistent state the step answers a next state, and that state is consistent: the engine
never stops (R213: it ends or it waits). -/
def Obligations.ConsistentEnginesNeverStop : Prop :=
  ∀ s : State, s.consistent → ∃ t, step s = .next t ∧ t.consistent

/-- R22, R23: the frame buffers hold whole frames or nothing, in every state that steps reach from one
that has it so. -/
def Obligations.StepsKeepTheBuffersWhole : Prop :=
  State.reset.buffersWhole ∧ ∀ s t : State, s.buffersWhole → step s = .next t → t.buffersWhole

/-- R83: the expansion of each pseudo-operation, and that a script stops at the first request that ends
in `Err`. -/
def Obligations.PseudoOperationsExpandAndStopAtErr : Prop :=
  Pseudo.connect.expand = [.attach, .enterRemote] ∧
  (∀ h range, (Pseudo.read1 h range).expand = [.configureAndRead [h] false false range]) ∧
  Pseudo.hold.expand = [.setHold true] ∧ Pseudo.run.expand = [.setHold false] ∧
  Pseudo.reconnect.expand = [.detach, .attach, .enterRemote] ∧
  (∀ (fuel : Nat) (i : Instr) (more : List Instr) (s t : State) (kind : ErrorKind) (info : ErrInfo),
    runOperation fuel (s.issue (encode i)) = .next t → t.outcome = some (.err kind info) →
    runScript fuel (i :: more) s = .next t) ∧
  (∀ (fuel : Nat) (i : Instr) (more : List Instr) (s t : State) (r : Result),
    runOperation fuel (s.issue (encode i)) = .next t → t.outcome = some (.ok r) →
    runScript fuel (i :: more) s = runScript fuel more t)
end

