-- ==== Sys2Proof/Laws/State.lean ====
section
/-! SUPPORT. One lemma per field and update of State, each true by `rfl`: later proofs rewrite with them
and never unfold a record update. -/

namespace Sys2Proof.Machine

section Accept
variable (s : State)
@[simp] theorem State.accept_lifecycle : (s.accept).lifecycle = s.lifecycle := rfl
@[simp] theorem State.accept_held : (s.accept).held = s.held := rfl
@[simp] theorem State.accept_phase : (s.accept).phase = s.phase := rfl
@[simp] theorem State.accept_cur : (s.accept).cur = none := rfl
@[simp] theorem State.accept_settlePending : (s.accept).settlePending = s.settlePending := rfl
@[simp] theorem State.accept_txBuf : (s.accept).txBuf = s.txBuf := rfl
@[simp] theorem State.accept_rxBuf : (s.accept).rxBuf = s.rxBuf := rfl
@[simp] theorem State.accept_results : (s.accept).results = [] := rfl
@[simp] theorem State.accept_outcome : (s.accept).outcome = none := rfl
@[simp] theorem State.accept_params : (s.accept).params = s.params := rfl
@[simp] theorem State.accept_resetInput : (s.accept).resetInput = s.resetInput := rfl
@[simp] theorem State.accept_hostPort : (s.accept).hostPort = s.hostPort := rfl
@[simp] theorem State.accept_sendAnswers : (s.accept).sendAnswers = s.sendAnswers := rfl
@[simp] theorem State.accept_recvAnswers : (s.accept).recvAnswers = s.recvAnswers := rfl
@[simp] theorem State.accept_txStream : (s.accept).txStream = s.txStream := rfl
end Accept

section Deliver
variable (o : OpOutcome) (s : State)
@[simp] theorem State.deliver_lifecycle : (s.deliver o).lifecycle = s.lifecycle := rfl
@[simp] theorem State.deliver_held : (s.deliver o).held = s.held := rfl
@[simp] theorem State.deliver_phase : (s.deliver o).phase = .idle := rfl
@[simp] theorem State.deliver_cur : (s.deliver o).cur = none := rfl
@[simp] theorem State.deliver_settlePending : (s.deliver o).settlePending = s.settlePending := rfl
@[simp] theorem State.deliver_txBuf : (s.deliver o).txBuf = s.txBuf := rfl
@[simp] theorem State.deliver_rxBuf : (s.deliver o).rxBuf = s.rxBuf := rfl
@[simp] theorem State.deliver_results : (s.deliver o).results = s.results := rfl
@[simp] theorem State.deliver_outcome : (s.deliver o).outcome = some o := rfl
@[simp] theorem State.deliver_params : (s.deliver o).params = s.params := rfl
@[simp] theorem State.deliver_resetInput : (s.deliver o).resetInput = s.resetInput := rfl
@[simp] theorem State.deliver_hostPort : (s.deliver o).hostPort = s.hostPort := rfl
@[simp] theorem State.deliver_sendAnswers : (s.deliver o).sendAnswers = s.sendAnswers := rfl
@[simp] theorem State.deliver_recvAnswers : (s.deliver o).recvAnswers = s.recvAnswers := rfl
@[simp] theorem State.deliver_txStream : (s.deliver o).txStream = s.txStream := rfl
end Deliver

section Complete
variable (r : Result) (s : State)
@[simp] theorem State.complete_lifecycle : (s.complete r).lifecycle = s.lifecycle := rfl
@[simp] theorem State.complete_held : (s.complete r).held = s.held := rfl
@[simp] theorem State.complete_phase : (s.complete r).phase = .idle := rfl
@[simp] theorem State.complete_cur : (s.complete r).cur = none := rfl
@[simp] theorem State.complete_settlePending : (s.complete r).settlePending = s.settlePending := rfl
@[simp] theorem State.complete_txBuf : (s.complete r).txBuf = s.txBuf := rfl
@[simp] theorem State.complete_rxBuf : (s.complete r).rxBuf = s.rxBuf := rfl
@[simp] theorem State.complete_results : (s.complete r).results = s.results := rfl
@[simp] theorem State.complete_outcome : (s.complete r).outcome = some (.ok r) := rfl
@[simp] theorem State.complete_params : (s.complete r).params = s.params := rfl
@[simp] theorem State.complete_resetInput : (s.complete r).resetInput = s.resetInput := rfl
@[simp] theorem State.complete_hostPort : (s.complete r).hostPort = s.hostPort := rfl
@[simp] theorem State.complete_sendAnswers : (s.complete r).sendAnswers = s.sendAnswers := rfl
@[simp] theorem State.complete_recvAnswers : (s.complete r).recvAnswers = s.recvAnswers := rfl
@[simp] theorem State.complete_txStream : (s.complete r).txStream = s.txStream := rfl
end Complete

section Disconnect
variable (s : State)
@[simp] theorem State.disconnect_lifecycle : (s.disconnect).lifecycle = .disconnected := rfl
@[simp] theorem State.disconnect_held : (s.disconnect).held = .unknown := rfl
@[simp] theorem State.disconnect_phase : (s.disconnect).phase = s.phase := rfl
@[simp] theorem State.disconnect_cur : (s.disconnect).cur = s.cur := rfl
@[simp] theorem State.disconnect_settlePending : (s.disconnect).settlePending = false := rfl
@[simp] theorem State.disconnect_txBuf : (s.disconnect).txBuf = s.txBuf := rfl
@[simp] theorem State.disconnect_rxBuf : (s.disconnect).rxBuf = s.rxBuf := rfl
@[simp] theorem State.disconnect_results : (s.disconnect).results = s.results := rfl
@[simp] theorem State.disconnect_outcome : (s.disconnect).outcome = s.outcome := rfl
@[simp] theorem State.disconnect_params : (s.disconnect).params = s.params := rfl
@[simp] theorem State.disconnect_resetInput : (s.disconnect).resetInput = s.resetInput := rfl
@[simp] theorem State.disconnect_hostPort : (s.disconnect).hostPort = s.hostPort := rfl
@[simp] theorem State.disconnect_sendAnswers : (s.disconnect).sendAnswers = s.sendAnswers := rfl
@[simp] theorem State.disconnect_recvAnswers : (s.disconnect).recvAnswers = s.recvAnswers := rfl
@[simp] theorem State.disconnect_txStream : (s.disconnect).txStream = s.txStream := rfl
end Disconnect

section Settle
variable (k : SettleKind) (s : State)
@[simp] theorem State.settle_lifecycle : (s.settle k).lifecycle = s.lifecycle := rfl
@[simp] theorem State.settle_held : (s.settle k).held = s.held := rfl
@[simp] theorem State.settle_phase : (s.settle k).phase = .awaitSettle k := rfl
@[simp] theorem State.settle_cur : (s.settle k).cur = s.cur := rfl
@[simp] theorem State.settle_settlePending : (s.settle k).settlePending = true := rfl
@[simp] theorem State.settle_txBuf : (s.settle k).txBuf = s.txBuf := rfl
@[simp] theorem State.settle_rxBuf : (s.settle k).rxBuf = s.rxBuf := rfl
@[simp] theorem State.settle_results : (s.settle k).results = s.results := rfl
@[simp] theorem State.settle_outcome : (s.settle k).outcome = s.outcome := rfl
@[simp] theorem State.settle_params : (s.settle k).params = s.params := rfl
@[simp] theorem State.settle_resetInput : (s.settle k).resetInput = s.resetInput := rfl
@[simp] theorem State.settle_hostPort : (s.settle k).hostPort = s.hostPort := rfl
@[simp] theorem State.settle_sendAnswers : (s.settle k).sendAnswers = s.sendAnswers := rfl
@[simp] theorem State.settle_recvAnswers : (s.settle k).recvAnswers = s.recvAnswers := rfl
@[simp] theorem State.settle_txStream : (s.settle k).txStream = s.txStream := rfl
end Settle

section Send
variable (f : Bytes) (s : State)
@[simp] theorem State.send_lifecycle : (s.send f).lifecycle = s.lifecycle := rfl
@[simp] theorem State.send_held : (s.send f).held = s.held := rfl
@[simp] theorem State.send_phase : (s.send f).phase = .awaitSend := rfl
@[simp] theorem State.send_cur : (s.send f).cur = s.cur := rfl
@[simp] theorem State.send_settlePending : (s.send f).settlePending = s.settlePending := rfl
@[simp] theorem State.send_txBuf : (s.send f).txBuf = some f := rfl
@[simp] theorem State.send_rxBuf : (s.send f).rxBuf = s.rxBuf := rfl
@[simp] theorem State.send_results : (s.send f).results = s.results := rfl
@[simp] theorem State.send_outcome : (s.send f).outcome = s.outcome := rfl
@[simp] theorem State.send_params : (s.send f).params = s.params := rfl
@[simp] theorem State.send_resetInput : (s.send f).resetInput = s.resetInput := rfl
@[simp] theorem State.send_hostPort : (s.send f).hostPort = s.hostPort := rfl
@[simp] theorem State.send_sendAnswers : (s.send f).sendAnswers = s.sendAnswers := rfl
@[simp] theorem State.send_recvAnswers : (s.send f).recvAnswers = s.recvAnswers := rfl
@[simp] theorem State.send_txStream : (s.send f).txStream = s.txStream ++ f := rfl
end Send

section Receive
variable (n : ReplyKind) (s : State)
@[simp] theorem State.receive_lifecycle : (s.receive n).lifecycle = s.lifecycle := rfl
@[simp] theorem State.receive_held : (s.receive n).held = s.held := rfl
@[simp] theorem State.receive_phase : (s.receive n).phase = .awaitRecv n := rfl
@[simp] theorem State.receive_cur : (s.receive n).cur = s.cur := rfl
@[simp] theorem State.receive_settlePending : (s.receive n).settlePending = s.settlePending := rfl
@[simp] theorem State.receive_txBuf : (s.receive n).txBuf = s.txBuf := rfl
@[simp] theorem State.receive_rxBuf : (s.receive n).rxBuf = s.rxBuf := rfl
@[simp] theorem State.receive_results : (s.receive n).results = s.results := rfl
@[simp] theorem State.receive_outcome : (s.receive n).outcome = s.outcome := rfl
@[simp] theorem State.receive_params : (s.receive n).params = s.params := rfl
@[simp] theorem State.receive_resetInput : (s.receive n).resetInput = s.resetInput := rfl
@[simp] theorem State.receive_hostPort : (s.receive n).hostPort = s.hostPort := rfl
@[simp] theorem State.receive_sendAnswers : (s.receive n).sendAnswers = s.sendAnswers := rfl
@[simp] theorem State.receive_recvAnswers : (s.receive n).recvAnswers = s.recvAnswers := rfl
@[simp] theorem State.receive_txStream : (s.receive n).txStream = s.txStream := rfl
end Receive

section Emit
variable (r : HeadResult) (s : State)
@[simp] theorem State.emit_lifecycle : (s.emit r).lifecycle = s.lifecycle := rfl
@[simp] theorem State.emit_held : (s.emit r).held = s.held := rfl
@[simp] theorem State.emit_phase : (s.emit r).phase = s.phase := rfl
@[simp] theorem State.emit_cur : (s.emit r).cur = s.cur := rfl
@[simp] theorem State.emit_settlePending : (s.emit r).settlePending = s.settlePending := rfl
@[simp] theorem State.emit_txBuf : (s.emit r).txBuf = s.txBuf := rfl
@[simp] theorem State.emit_rxBuf : (s.emit r).rxBuf = s.rxBuf := rfl
@[simp] theorem State.emit_results : (s.emit r).results = s.results ++ [r] := rfl
@[simp] theorem State.emit_outcome : (s.emit r).outcome = s.outcome := rfl
@[simp] theorem State.emit_params : (s.emit r).params = s.params := rfl
@[simp] theorem State.emit_resetInput : (s.emit r).resetInput = s.resetInput := rfl
@[simp] theorem State.emit_hostPort : (s.emit r).hostPort = s.hostPort := rfl
@[simp] theorem State.emit_sendAnswers : (s.emit r).sendAnswers = s.sendAnswers := rfl
@[simp] theorem State.emit_recvAnswers : (s.emit r).recvAnswers = s.recvAnswers := rfl
@[simp] theorem State.emit_txStream : (s.emit r).txStream = s.txStream := rfl
end Emit

section OweSettle
variable (k : SettleKind) (s : State)
@[simp] theorem State.oweSettle_lifecycle : (s.oweSettle k).lifecycle = s.lifecycle := rfl
@[simp] theorem State.oweSettle_held : (s.oweSettle k).held = s.held := rfl
@[simp] theorem State.oweSettle_phase : (s.oweSettle k).phase = s.phase := rfl
@[simp] theorem State.oweSettle_cur : (s.oweSettle k).cur = s.cur.map fun c => { c with owe := some k } := rfl
@[simp] theorem State.oweSettle_settlePending : (s.oweSettle k).settlePending = s.settlePending := rfl
@[simp] theorem State.oweSettle_txBuf : (s.oweSettle k).txBuf = s.txBuf := rfl
@[simp] theorem State.oweSettle_rxBuf : (s.oweSettle k).rxBuf = s.rxBuf := rfl
@[simp] theorem State.oweSettle_results : (s.oweSettle k).results = s.results := rfl
@[simp] theorem State.oweSettle_outcome : (s.oweSettle k).outcome = s.outcome := rfl
@[simp] theorem State.oweSettle_params : (s.oweSettle k).params = s.params := rfl
@[simp] theorem State.oweSettle_resetInput : (s.oweSettle k).resetInput = s.resetInput := rfl
@[simp] theorem State.oweSettle_hostPort : (s.oweSettle k).hostPort = s.hostPort := rfl
@[simp] theorem State.oweSettle_sendAnswers : (s.oweSettle k).sendAnswers = s.sendAnswers := rfl
@[simp] theorem State.oweSettle_recvAnswers : (s.oweSettle k).recvAnswers = s.recvAnswers := rfl
@[simp] theorem State.oweSettle_txStream : (s.oweSettle k).txStream = s.txStream := rfl
end OweSettle

section ApplyReset
variable (s : State)
@[simp] theorem State.applyReset_lifecycle : (s.applyReset).lifecycle = .disconnected := rfl
@[simp] theorem State.applyReset_held : (s.applyReset).held = .unknown := rfl
@[simp] theorem State.applyReset_phase : (s.applyReset).phase = .idle := rfl
@[simp] theorem State.applyReset_cur : (s.applyReset).cur = none := rfl
@[simp] theorem State.applyReset_settlePending : (s.applyReset).settlePending = false := rfl
@[simp] theorem State.applyReset_txBuf : (s.applyReset).txBuf = none := rfl
@[simp] theorem State.applyReset_rxBuf : (s.applyReset).rxBuf = none := rfl
@[simp] theorem State.applyReset_results : (s.applyReset).results = [] := rfl
@[simp] theorem State.applyReset_outcome : (s.applyReset).outcome = none := rfl
@[simp] theorem State.applyReset_params : (s.applyReset).params = s.params := rfl
@[simp] theorem State.applyReset_resetInput : (s.applyReset).resetInput = false := rfl
@[simp] theorem State.applyReset_hostPort : (s.applyReset).hostPort = s.hostPort := rfl
@[simp] theorem State.applyReset_sendAnswers : (s.applyReset).sendAnswers = s.sendAnswers := rfl
@[simp] theorem State.applyReset_recvAnswers : (s.applyReset).recvAnswers = s.recvAnswers := rfl
@[simp] theorem State.applyReset_txStream : (s.applyReset).txStream = s.txStream := rfl
end ApplyReset

section PlaceRequest
variable (q : Bytes) (s : State)
@[simp] theorem State.placeRequest_lifecycle : (s.placeRequest q).lifecycle = s.lifecycle := rfl
@[simp] theorem State.placeRequest_held : (s.placeRequest q).held = s.held := rfl
@[simp] theorem State.placeRequest_phase : (s.placeRequest q).phase = .idle := rfl
@[simp] theorem State.placeRequest_cur : (s.placeRequest q).cur = none := rfl
@[simp] theorem State.placeRequest_settlePending : (s.placeRequest q).settlePending = false := rfl
@[simp] theorem State.placeRequest_txBuf : (s.placeRequest q).txBuf = s.txBuf := rfl
@[simp] theorem State.placeRequest_rxBuf : (s.placeRequest q).rxBuf = s.rxBuf := rfl
@[simp] theorem State.placeRequest_results : (s.placeRequest q).results = s.results := rfl
@[simp] theorem State.placeRequest_outcome : (s.placeRequest q).outcome = s.outcome := rfl
@[simp] theorem State.placeRequest_params : (s.placeRequest q).params = s.params := rfl
@[simp] theorem State.placeRequest_resetInput : (s.placeRequest q).resetInput = false := rfl
@[simp] theorem State.placeRequest_hostPort : (s.placeRequest q).hostPort = q :: s.hostPort := rfl
@[simp] theorem State.placeRequest_sendAnswers : (s.placeRequest q).sendAnswers = s.sendAnswers := rfl
@[simp] theorem State.placeRequest_recvAnswers : (s.placeRequest q).recvAnswers = s.recvAnswers := rfl
@[simp] theorem State.placeRequest_txStream : (s.placeRequest q).txStream = s.txStream := rfl
end PlaceRequest

section Issue
variable (q : Bytes) (s : State)
@[simp] theorem State.issue_lifecycle : (s.issue q).lifecycle = s.lifecycle := rfl
@[simp] theorem State.issue_held : (s.issue q).held = s.held := rfl
@[simp] theorem State.issue_phase : (s.issue q).phase = s.phase := rfl
@[simp] theorem State.issue_cur : (s.issue q).cur = s.cur := rfl
@[simp] theorem State.issue_settlePending : (s.issue q).settlePending = s.settlePending := rfl
@[simp] theorem State.issue_txBuf : (s.issue q).txBuf = s.txBuf := rfl
@[simp] theorem State.issue_rxBuf : (s.issue q).rxBuf = s.rxBuf := rfl
@[simp] theorem State.issue_results : (s.issue q).results = s.results := rfl
@[simp] theorem State.issue_outcome : (s.issue q).outcome = s.outcome := rfl
@[simp] theorem State.issue_params : (s.issue q).params = s.params := rfl
@[simp] theorem State.issue_resetInput : (s.issue q).resetInput = s.resetInput := rfl
@[simp] theorem State.issue_hostPort : (s.issue q).hostPort = s.hostPort ++ [q] := rfl
@[simp] theorem State.issue_sendAnswers : (s.issue q).sendAnswers = s.sendAnswers := rfl
@[simp] theorem State.issue_recvAnswers : (s.issue q).recvAnswers = s.recvAnswers := rfl
@[simp] theorem State.issue_txStream : (s.issue q).txStream = s.txStream := rfl
end Issue

section AnswerSend
variable (a : SendAnswer) (s : State)
@[simp] theorem State.answerSend_lifecycle : (s.answerSend a).lifecycle = s.lifecycle := rfl
@[simp] theorem State.answerSend_held : (s.answerSend a).held = s.held := rfl
@[simp] theorem State.answerSend_phase : (s.answerSend a).phase = s.phase := rfl
@[simp] theorem State.answerSend_cur : (s.answerSend a).cur = s.cur := rfl
@[simp] theorem State.answerSend_settlePending : (s.answerSend a).settlePending = s.settlePending := rfl
@[simp] theorem State.answerSend_txBuf : (s.answerSend a).txBuf = s.txBuf := rfl
@[simp] theorem State.answerSend_rxBuf : (s.answerSend a).rxBuf = s.rxBuf := rfl
@[simp] theorem State.answerSend_results : (s.answerSend a).results = s.results := rfl
@[simp] theorem State.answerSend_outcome : (s.answerSend a).outcome = s.outcome := rfl
@[simp] theorem State.answerSend_params : (s.answerSend a).params = s.params := rfl
@[simp] theorem State.answerSend_resetInput : (s.answerSend a).resetInput = s.resetInput := rfl
@[simp] theorem State.answerSend_hostPort : (s.answerSend a).hostPort = s.hostPort := rfl
@[simp] theorem State.answerSend_sendAnswers : (s.answerSend a).sendAnswers = s.sendAnswers ++ [a] := rfl
@[simp] theorem State.answerSend_recvAnswers : (s.answerSend a).recvAnswers = s.recvAnswers := rfl
@[simp] theorem State.answerSend_txStream : (s.answerSend a).txStream = s.txStream := rfl
end AnswerSend

section AnswerReceive
variable (a : RecvAnswer) (s : State)
@[simp] theorem State.answerReceive_lifecycle : (s.answerReceive a).lifecycle = s.lifecycle := rfl
@[simp] theorem State.answerReceive_held : (s.answerReceive a).held = s.held := rfl
@[simp] theorem State.answerReceive_phase : (s.answerReceive a).phase = s.phase := rfl
@[simp] theorem State.answerReceive_cur : (s.answerReceive a).cur = s.cur := rfl
@[simp] theorem State.answerReceive_settlePending : (s.answerReceive a).settlePending = s.settlePending := rfl
@[simp] theorem State.answerReceive_txBuf : (s.answerReceive a).txBuf = s.txBuf := rfl
@[simp] theorem State.answerReceive_rxBuf : (s.answerReceive a).rxBuf = s.rxBuf := rfl
@[simp] theorem State.answerReceive_results : (s.answerReceive a).results = s.results := rfl
@[simp] theorem State.answerReceive_outcome : (s.answerReceive a).outcome = s.outcome := rfl
@[simp] theorem State.answerReceive_params : (s.answerReceive a).params = s.params := rfl
@[simp] theorem State.answerReceive_resetInput : (s.answerReceive a).resetInput = s.resetInput := rfl
@[simp] theorem State.answerReceive_hostPort : (s.answerReceive a).hostPort = s.hostPort := rfl
@[simp] theorem State.answerReceive_sendAnswers : (s.answerReceive a).sendAnswers = s.sendAnswers := rfl
@[simp] theorem State.answerReceive_recvAnswers : (s.answerReceive a).recvAnswers = s.recvAnswers ++ [a] := rfl
@[simp] theorem State.answerReceive_txStream : (s.answerReceive a).txStream = s.txStream := rfl
end AnswerReceive

section PullReset
variable (s : State)
@[simp] theorem State.pullReset_lifecycle : (s.pullReset).lifecycle = s.lifecycle := rfl
@[simp] theorem State.pullReset_held : (s.pullReset).held = s.held := rfl
@[simp] theorem State.pullReset_phase : (s.pullReset).phase = s.phase := rfl
@[simp] theorem State.pullReset_cur : (s.pullReset).cur = s.cur := rfl
@[simp] theorem State.pullReset_settlePending : (s.pullReset).settlePending = s.settlePending := rfl
@[simp] theorem State.pullReset_txBuf : (s.pullReset).txBuf = s.txBuf := rfl
@[simp] theorem State.pullReset_rxBuf : (s.pullReset).rxBuf = s.rxBuf := rfl
@[simp] theorem State.pullReset_results : (s.pullReset).results = s.results := rfl
@[simp] theorem State.pullReset_outcome : (s.pullReset).outcome = s.outcome := rfl
@[simp] theorem State.pullReset_params : (s.pullReset).params = s.params := rfl
@[simp] theorem State.pullReset_resetInput : (s.pullReset).resetInput = true := rfl
@[simp] theorem State.pullReset_hostPort : (s.pullReset).hostPort = s.hostPort := rfl
@[simp] theorem State.pullReset_sendAnswers : (s.pullReset).sendAnswers = s.sendAnswers := rfl
@[simp] theorem State.pullReset_recvAnswers : (s.pullReset).recvAnswers = s.recvAnswers := rfl
@[simp] theorem State.pullReset_txStream : (s.pullReset).txStream = s.txStream := rfl
end PullReset

end Sys2Proof.Machine
end

