-- ==== Sys2Proof/Laws/Ops.lean ====
section
/-! SUPPORT. For each shared operation one lemma that says once everything it can do. -/

namespace Sys2Proof.Machine

/-! ### Error entry and its callers -/

/-- A fatal kind ends the session and is delivered at once. -/
theorem State.raise_fatal {e : Raised} (h : e.kind.fatal = true) (index : Nat) (head : Byte)
    (s : State) :
    s.raise e index head = s.disconnect.deliver (.err e.kind (e.info index head)) := by
  simp [State.raise, h]

/-- Another kind waits for the settle the operation owes. -/
theorem State.raise_owed {e : Raised} (h : e.kind.fatal = false) (index : Nat) (head : Byte)
    {s : State} {c : OpContext} {k : SettleKind} (hc : s.cur = some c) (hk : c.owe = some k) :
    s.raise e index head =
      { s with cur := some { c with failure := some ⟨e.kind, e.info index head⟩ } }.settle k := by
  simp [State.raise, h, hc, hk]

/-- Another kind is delivered at once where no settle is owed. -/
theorem State.raise_plain {e : Raised} (h : e.kind.fatal = false) (index : Nat) (head : Byte)
    {s : State} (hc : ∀ c, s.cur = some c → c.owe = none) :
    s.raise e index head = s.deliver (.err e.kind (e.info index head)) := by
  cases hs : s.cur with
  | none => simp [State.raise, h, hs]
  | some c => simp [State.raise, h, hs, hc c hs]

/-- Everything error entry can do. -/
theorem State.raise_cases (e : Raised) (index : Nat) (head : Byte) (s : State) :
    (e.kind.fatal = true ∧
      s.raise e index head = s.disconnect.deliver (.err e.kind (e.info index head))) ∨
    (e.kind.fatal = false ∧ ∃ c k, s.cur = some c ∧ c.owe = some k ∧
      s.raise e index head =
        { s with cur := some { c with failure := some ⟨e.kind, e.info index head⟩ } }.settle k) ∨
    (e.kind.fatal = false ∧ (∀ c, s.cur = some c → c.owe = none) ∧
      s.raise e index head = s.deliver (.err e.kind (e.info index head))) := by
  cases hf : e.kind.fatal with
  | true => exact .inl ⟨rfl, State.raise_fatal hf index head s⟩
  | false =>
    refine .inr ?_
    cases hs : s.cur with
    | none => exact .inr ⟨rfl, by simp, by simp [State.raise, hf, hs]⟩
    | some c =>
      cases hk : c.owe with
      | none =>
        refine .inr ⟨rfl, ?_, by simp [State.raise, hf, hs, hk]⟩
        rintro _ ⟨⟩; exact hk
      | some k => exact .inl ⟨rfl, c, k, rfl, hk, State.raise_owed hf index head hs hk⟩

section RaiseFrame
variable (e : Raised) (index : Nat) (head : Byte) (s : State)

@[simp] theorem State.raise_txBuf : (s.raise e index head).txBuf = s.txBuf := by
  rcases s.raise_cases e index head with ⟨-, h⟩ | ⟨-, c, k, -, -, h⟩ | ⟨-, -, h⟩ <;> simp [h]
@[simp] theorem State.raise_rxBuf : (s.raise e index head).rxBuf = s.rxBuf := by
  rcases s.raise_cases e index head with ⟨-, h⟩ | ⟨-, c, k, -, -, h⟩ | ⟨-, -, h⟩ <;> simp [h]
@[simp] theorem State.raise_results : (s.raise e index head).results = s.results := by
  rcases s.raise_cases e index head with ⟨-, h⟩ | ⟨-, c, k, -, -, h⟩ | ⟨-, -, h⟩ <;> simp [h]
@[simp] theorem State.raise_params : (s.raise e index head).params = s.params := by
  rcases s.raise_cases e index head with ⟨-, h⟩ | ⟨-, c, k, -, -, h⟩ | ⟨-, -, h⟩ <;> simp [h]
@[simp] theorem State.raise_resetInput : (s.raise e index head).resetInput = s.resetInput := by
  rcases s.raise_cases e index head with ⟨-, h⟩ | ⟨-, c, k, -, -, h⟩ | ⟨-, -, h⟩ <;> simp [h]
@[simp] theorem State.raise_hostPort : (s.raise e index head).hostPort = s.hostPort := by
  rcases s.raise_cases e index head with ⟨-, h⟩ | ⟨-, c, k, -, -, h⟩ | ⟨-, -, h⟩ <;> simp [h]
@[simp] theorem State.raise_sendAnswers :
    (s.raise e index head).sendAnswers = s.sendAnswers := by
  rcases s.raise_cases e index head with ⟨-, h⟩ | ⟨-, c, k, -, -, h⟩ | ⟨-, -, h⟩ <;> simp [h]
@[simp] theorem State.raise_recvAnswers :
    (s.raise e index head).recvAnswers = s.recvAnswers := by
  rcases s.raise_cases e index head with ⟨-, h⟩ | ⟨-, c, k, -, -, h⟩ | ⟨-, -, h⟩ <;> simp [h]
@[simp] theorem State.raise_txStream : (s.raise e index head).txStream = s.txStream := by
  rcases s.raise_cases e index head with ⟨-, h⟩ | ⟨-, c, k, -, -, h⟩ | ⟨-, -, h⟩ <;> simp [h]

end RaiseFrame

/-- The outcome of an operation that answers at once (R13, R180 step 1). -/
def outcomeOf : Except Raised Result → OpOutcome
  | .ok v => .ok v
  | .error e => .err e.kind (e.info 0 noHead)

/-- An operation that answers at once, on an accepted state: its outcome is delivered, and nothing else
is written. -/
theorem State.answer_accept {r : Except Raised Result} (h : ∀ e, r = .error e → e.kind.fatal = false)
    (s : State) : s.accept.answer r = s.answered (outcomeOf r) := by
  cases r with
  | ok v => rfl
  | error e => exact State.raise_plain (h e rfl) 0 noHead (s := s.accept) (by rintro _ ⟨⟩)

/-- The start of an exchange either sends the encoded frame or raises the encoder's error. -/
theorem State.exchange_cases (c : OpContext) (frame : Except Raised Bytes) (s : State) :
    (∃ f, frame = .ok f ∧ s.exchange c frame = { s with cur := some c }.send f) ∨
    (∃ e, frame = .error e ∧ s.exchange c frame = s.raise e c.index c.sentHead) := by
  cases frame with
  | ok f => exact .inl ⟨f, rfl, rfl⟩
  | error e => exact .inr ⟨e, rfl, rfl⟩

/-! ### The transport's answers -/

/-- Exactly the count 14 is a good send. -/
theorem judgeSend_eq_none {a : SendAnswer} : judgeSend a = none ↔ a = .count 14 := by
  cases a with
  | error => simp [judgeSend]
  | count n =>
    simp only [judgeSend, SendAnswer.count.injEq]
    split_ifs <;> simp <;> omega

/-- A good receive is exactly a byte string of the length asked for. -/
theorem judgeReceive_eq_some {n : ReplyKind} {a : RecvAnswer} {b : Bytes} :
    judgeReceive n a = some b ↔ a = .bytes b ∧ b.length = n.length := by
  cases a with
  | error => simp [judgeReceive]
  | bytes x =>
    simp only [judgeReceive, RecvAnswer.bytes.injEq]
    split_ifs with h
    · constructor
      · rintro ⟨⟩; exact ⟨rfl, h⟩
      · rintro ⟨rfl, -⟩; rfl
    · simp only [false_iff, not_and]
      rintro rfl; exact h

/-- Everything the end of a `Send` can do. -/
theorem State.onSendAnswer_next {next : OpContext → State → State} {s t : State}
    (h : s.onSendAnswer next = .next t) :
    ∃ c, s.cur = some c ∧
      ((s.sendAnswers = [] ∧ t = s) ∨
       ∃ a rest, s.sendAnswers = a :: rest ∧
        ((∃ reason, judgeSend a = some reason ∧
            t = (s.sendTaken rest).raise (.transport reason) c.index c.sentHead) ∨
         (a = .count 14 ∧ t = next c (s.sendTaken rest)))) := by
  unfold State.onSendAnswer at h
  cases hc : s.cur with
  | none => simp [hc] at h
  | some c =>
    refine ⟨c, rfl, ?_⟩
    cases ha : s.sendAnswers with
    | nil => simp [hc, ha] at h; exact .inl ⟨rfl, h.symm⟩
    | cons a rest =>
      refine .inr ⟨a, rest, rfl, ?_⟩
      cases hj : judgeSend a with
      | some reason => simp [hc, ha, hj] at h; exact .inl ⟨reason, rfl, h.symm⟩
      | none =>
        simp only [hc, ha, hj, Host.Outcome.next.injEq] at h
        exact .inr ⟨judgeSend_eq_none.mp hj, by rw [← h, State.sendTaken, ← hc]⟩

/-- Everything the end of a `Receive(n)` can do. -/
theorem State.onReceiveAnswer_next {n : ReplyKind} {next : OpContext → Bytes → State → State}
    {s t : State} (h : s.onReceiveAnswer n next = .next t) :
    ∃ c, s.cur = some c ∧
      ((s.recvAnswers = [] ∧ t = s) ∨
       ∃ a rest, s.recvAnswers = a :: rest ∧
        ((judgeReceive n a = none ∧
            t = { s with recvAnswers := rest }.raise (.transport .receiveFailed) c.index c.sentHead) ∨
         (∃ b, a = .bytes b ∧ b.length = n.length ∧ t = next c b (s.replyTaken b rest)))) := by
  unfold State.onReceiveAnswer at h
  cases hc : s.cur with
  | none => simp [hc] at h
  | some c =>
    refine ⟨c, rfl, ?_⟩
    cases ha : s.recvAnswers with
    | nil => simp [hc, ha] at h; exact .inl ⟨rfl, h.symm⟩
    | cons a rest =>
      refine .inr ⟨a, rest, rfl, ?_⟩
      cases hj : judgeReceive n a with
      | none => simp [hc, ha, hj] at h; exact .inl ⟨rfl, h.symm⟩
      | some b =>
        simp only [hc, ha, hj, Host.Outcome.next.injEq] at h
        obtain ⟨h1, h2⟩ := judgeReceive_eq_some.mp hj
        exact .inr ⟨b, h1, h2, by rw [← h, State.replyTaken, ← hc]⟩

/-- Everything the end of a settle can do. -/
theorem State.onElapsed_next {next : OpContext → State → State} {s t : State}
    (h : s.onElapsed next = .next t) :
    ∃ c, s.cur = some c ∧
      ((∃ g, c.failure = some g ∧
          t = ({ s with settlePending := false }).ended (.err g.kind g.info)) ∨
       (c.failure = none ∧
          t = next c { s with settlePending := false, cur := some { c with owe := none } })) := by
  unfold State.onElapsed at h
  cases hc : s.cur with
  | none => simp [hc] at h
  | some c =>
    refine ⟨c, rfl, ?_⟩
    cases hg : c.failure with
    | some g => simp [hc, hg] at h; exact .inl ⟨g, rfl, h.symm⟩
    | none => simp [hc, hg] at h; exact .inr ⟨rfl, h.symm⟩

/-! ### The request port -/

/-- A request is taken exactly where one waits. -/
theorem State.takeRequest_eq_some {s t : State} {q : Bytes} :
    s.takeRequest = some (q, t) ↔ ∃ rest, s.hostPort = q :: rest ∧ t = { s with hostPort := rest } := by
  unfold State.takeRequest
  cases hp : s.hostPort with
  | nil => simp
  | cons r rest =>
    simp only [Option.some.injEq, Prod.mk.injEq, List.cons.injEq]
    constructor
    · rintro ⟨rfl, rfl⟩; exact ⟨rest, ⟨rfl, rfl⟩, rfl⟩
    · rintro ⟨rest', ⟨rfl, rfl⟩, rfl⟩; exact ⟨rfl, rfl⟩

/-! ### The codec -/

/-- What the encoder answers when it answers: its four checks passed, and the frame. -/
theorem encodeShort_eq_ok {head : Byte} {command parameter f : Bytes}
    (h : encodeShort head command parameter = .ok f) :
    parameter.length = 4 ∧ head.toNat ≤ 99 ∧ command.length = 2 ∧
      (command ++ parameter).all isPrintable = true ∧
      f = [Chars.STX] ++ (encodeHead head ++ command ++ parameter ++ [Chars.ETX]) ++
        hex2 (bcc (encodeHead head ++ command ++ parameter ++ [Chars.ETX])) ++ [Chars.CR, Chars.LF] := by
  unfold encodeShort at h
  split_ifs at h with h1 h2 h3 h4
  injection h with h
  refine ⟨by omega, by omega, by omega, ?_, h.symm⟩
  simpa using h4

/-- Every error of the encoder is a FormatError. -/
theorem encodeShort_eq_error {head : Byte} {command parameter : Bytes} {e : Raised}
    (h : encodeShort head command parameter = .error e) : ∃ r, e = .format r := by
  unfold encodeShort at h
  split_ifs at h <;> injection h with h <;> exact ⟨_, h.symm⟩

/-- Every encoded frame has 14 bytes. -/
theorem encodeShort_length {head : Byte} {command parameter f : Bytes}
    (h : encodeShort head command parameter = .ok f) : f.length = 14 := by
  obtain ⟨h1, -, h3, -, rfl⟩ := encodeShort_eq_ok h
  simp [encodeHead, hex2, h1, h3]

/-- Every error of the measurement decoder is a FormatError. -/
theorem decodeMeasurement_eq_error {m : Bytes} {e : Raised} (h : decodeMeasurement m = .error e) :
    e = .format .badLength ∨ e = .format .nonDigitMeasurement := by
  unfold decodeMeasurement at h
  split at h
  · split_ifs at h
    split at h
    · exact absurd h (by simp)
    · injection h with h; exact .inr h.symm
  · injection h with h; exact .inl h.symm

/-- Every error of the short decoder is a FormatError or a ChecksumError. -/
theorem decodeShort_eq_error {p : Params} {f : Bytes} {e : Raised}
    (h : decodeShort p f = .error e) : e = .checksum ∨ ∃ r, e = .format r := by
  unfold decodeShort at h
  split_ifs at h
  · injection h with h; exact .inr ⟨_, h.symm⟩
  · injection h with h; exact .inr ⟨_, h.symm⟩
  · injection h with h; exact .inl h.symm
  · split at h
    · injection h with h; exact .inr ⟨_, h.symm⟩
    · exact absurd h (by simp)

/-- Every error of the long decoder is a FormatError or a ChecksumError. -/
theorem decodeLong_eq_error {p : Params} {f : Bytes} {e : Raised}
    (h : decodeLong p f = .error e) : e = .checksum ∨ ∃ r, e = .format r := by
  have meas : ∀ {m : Bytes} {e : Raised}, decodeMeasurement m = .error e → ∃ r, e = .format r := by
    intro m e h
    rcases decodeMeasurement_eq_error h with h | h <;> exact ⟨_, h⟩
  unfold decodeLong at h
  split_ifs at h
  · injection h with h; exact .inr ⟨_, h.symm⟩
  · injection h with h; exact .inr ⟨_, h.symm⟩
  · injection h with h; exact .inl h.symm
  · split at h
    · injection h with h; exact .inr ⟨_, h.symm⟩
    · split at h
      · rename_i h1; injection h with h; subst h; exact .inr (meas h1)
      · split at h
        · rename_i h1; injection h with h; subst h; exact .inr (meas h1)
        · split at h
          · rename_i h1; injection h with h; subst h; exact .inr (meas h1)
          · exact absurd h (by simp)

/-- A short frame that decodes has 14 bytes. -/
theorem decodeShort_length {p : Params} {f : Bytes} {r : ShortFields}
    (h : decodeShort p f = .ok r) : f.length = 14 := by
  by_contra hn
  simp [decodeShort, hn] at h

/-- A long frame that decodes has 32 bytes. -/
theorem decodeLong_length {p : Params} {f : Bytes} {r : LongFields}
    (h : decodeLong p f = .ok r) : f.length = 32 := by
  by_contra hn
  simp [decodeLong, hn] at h

/-- Every error of range selection is RangeError or BadRangeSyntax. -/
theorem selectRange_eq_error {p : Params} {r : Bytes} {e : Raised} (h : selectRange p r = .error e) :
    e = .range ∨ e = .format .badRangeSyntax := by
  unfold selectRange at h
  split_ifs at h
  split at h
  · injection h with h; exact .inr h.symm
  · unfold bandCode at h
    split_ifs at h <;> injection h with h <;> exact .inl h.symm

/-- Every error of the classifier is BadLength or UnknownStatus. -/
theorem classifyStatus_eq_error {s : Bytes} {e : Raised} (h : classifyStatus s = .error e) :
    e = .format .badLength ∨ e = .format .unknownStatus := by
  unfold classifyStatus at h
  split at h
  · split at h
    · injection h with h; exact .inr h.symm
    · split at h
      · injection h with h; exact .inr h.symm
      · exact absurd h (by simp)
  · injection h with h; exact .inl h.symm

/-! ### The request format -/

/-- A value that an operand of a type can carry in a request (R74). -/
def operandFits : OperandType → Operand → Bool
  | .u8, .u8 _ => true
  | .bool, .bool _ => true
  | .str max, .str s => fits max s
  | .list max, .list l => fits max l
  | _, _ => false

/-- Reading back an encoded operand gives the operand, leaves the bytes after it, and finds nothing
wrong. -/
theorem parseOperand_encodeOperand {t : OperandType} {v : Operand} (h : operandFits t v = true)
    (rest : Bytes) : parseOperand t (encodeOperand v ++ rest) = ⟨v, rest, []⟩ := by
  have counted : ∀ (max : Nat) (e : FormatReason) (x : Bytes), fits max x = true →
      parseCounted max e (BitVec.ofNat 8 x.length :: (x ++ rest)) = ⟨x, rest, []⟩ := by
    intro max e x hx
    simp only [fits, Bool.and_eq_true, decide_eq_true_eq] at hx
    have hm : x.length % 256 = x.length := Nat.mod_eq_of_lt (by omega)
    simp [parseCounted, hm, hx.1]
  cases t <;> cases v <;> simp [operandFits] at h
  case u8.u8 b => rfl
  case bool.bool b => cases b <;> rfl
  case str.str max x => simp [parseOperand, encodeOperand, counted max _ x h]
  case list.list max x => simp [parseOperand, encodeOperand, counted max _ x h]

end Sys2Proof.Machine
end

