-- ==== Sys2Proof/Laws/PerInstr.lean ====
section
/-! SUPPORT. The statements made per operation: a family of lemmas, one per constructor of Instr. -/

namespace Sys2Proof.Laws

open Sys2Proof Sys2Proof.Machine

/-- The opcode's row of R76 fits the operation: the row exists, the operation is what the row builds
from its operands, and its operands fit the row's types exactly where the operation is well formed. -/
def OpcodeRow.Statement (i : Instr) : Prop :=
  ∀ p : Params, ∃ fmt, operandFormat p i.opcode = some fmt ∧ buildInstr i.opcode i.operands = some i ∧
    (i.wellFormed p = true → List.Forall₂ (fun t v => operandFits t v = true) fmt i.operands)

theorem OpcodeRow.attach : OpcodeRow.Statement .attach :=
  fun _ => ⟨_, rfl, rfl, fun _ => .nil⟩

theorem OpcodeRow.detach : OpcodeRow.Statement .detach :=
  fun _ => ⟨_, rfl, rfl, fun _ => .nil⟩

theorem OpcodeRow.readState : OpcodeRow.Statement .readState :=
  fun _ => ⟨_, rfl, rfl, fun _ => .nil⟩

theorem OpcodeRow.enterRemote : OpcodeRow.Statement .enterRemote :=
  fun _ => ⟨_, rfl, rfl, fun _ => .nil⟩

theorem OpcodeRow.configureAndRead (heads : List Byte) (hold ccf : Bool) (range : Bytes) :
    OpcodeRow.Statement (.configureAndRead heads hold ccf range) := by
  refine fun p => ⟨_, rfl, rfl, fun h => ?_⟩
  simp only [Instr.wellFormed, Bool.and_eq_true] at h
  exact .cons h.1 (.cons rfl (.cons rfl (.cons h.2 .nil)))

theorem OpcodeRow.setHold (flag : Bool) : OpcodeRow.Statement (.setHold flag) :=
  fun _ => ⟨_, rfl, rfl, fun _ => .cons rfl .nil⟩

theorem OpcodeRow.clearIntegrated (head : Byte) : OpcodeRow.Statement (.clearIntegrated head) :=
  fun _ => ⟨_, rfl, rfl, fun _ => .cons rfl .nil⟩

theorem OpcodeRow.computeBcc (span : Bytes) : OpcodeRow.Statement (.computeBcc span) :=
  fun _ => ⟨_, rfl, rfl, fun h => .cons h .nil⟩

theorem OpcodeRow.encodeShort (head : Byte) (command parameter : Bytes) :
    OpcodeRow.Statement (.encodeShort head command parameter) := by
  refine fun p => ⟨_, rfl, rfl, fun h => ?_⟩
  simp only [Instr.wellFormed, Bool.and_eq_true] at h
  exact .cons rfl (.cons h.1 (.cons h.2 .nil))

theorem OpcodeRow.decodeShort (frame : Bytes) : OpcodeRow.Statement (.decodeShort frame) :=
  fun _ => ⟨_, rfl, rfl, fun h => .cons h .nil⟩

theorem OpcodeRow.decodeLong (frame : Bytes) : OpcodeRow.Statement (.decodeLong frame) :=
  fun _ => ⟨_, rfl, rfl, fun h => .cons h .nil⟩

theorem OpcodeRow.classifyStatus (status : Bytes) : OpcodeRow.Statement (.classifyStatus status) :=
  fun _ => ⟨_, rfl, rfl, fun h => .cons h .nil⟩

theorem OpcodeRow.decodeMeasurement (field : Bytes) :
    OpcodeRow.Statement (.decodeMeasurement field) :=
  fun _ => ⟨_, rfl, rfl, fun h => .cons h .nil⟩

theorem OpcodeRow.selectRange (range : Bytes) : OpcodeRow.Statement (.selectRange range) :=
  fun _ => ⟨_, rfl, rfl, fun h => .cons h .nil⟩

theorem OpcodeRow.packReadParam (hold ccf : Bool) (range : Bytes) :
    OpcodeRow.Statement (.packReadParam hold ccf range) :=
  fun _ => ⟨_, rfl, rfl, fun h => .cons rfl (.cons rfl (.cons h .nil))⟩

end Sys2Proof.Laws
end

