-- ==== Sys2Proof/Laws/Step.lean ====
section
/-! SUPPORT. Inversion: everything a step that answers a next state can have done. -/

namespace Sys2Proof.Machine

/-- Everything a step can do: reset, wait for a request, turn one away, run one, or resume. -/
theorem step_next {s t : State} (h : step s = .next t) :
    (s.resetInput = true ∧ t = s.applyReset) ∨
    (s.resetInput = false ∧ s.phase = .idle ∧ s.hostPort = [] ∧ t = s) ∨
    (s.resetInput = false ∧ s.phase = .idle ∧ ∃ q rest, s.hostPort = q :: rest ∧
      ((∃ e, decodeRequest s.params q = .error e ∧
          t = ({ s with hostPort := rest } : State).rejectRequest e) ∨
       (∃ i, decodeRequest s.params q = .ok i ∧ exec i { s with hostPort := rest } = .next t))) ∨
    (s.resetInput = false ∧ s.phase ≠ .idle ∧ ∃ c, s.cur = some c ∧ isDevice c.request = true ∧
      exec c.request s = .next t) := by
  unfold step at h
  by_cases hr : s.resetInput = true
  · rw [if_pos hr, Host.Outcome.next.injEq] at h; exact .inl ⟨hr, h.symm⟩
  · rw [if_neg hr] at h
    rw [Bool.not_eq_true] at hr
    refine .inr ?_
    split at h
    · rename_i hp
      cases hq : s.hostPort with
      | nil =>
        simp only [State.takeRequest, hq, Host.Outcome.next.injEq] at h
        exact .inl ⟨hr, hp, rfl, h.symm⟩
      | cons q rest =>
        simp only [State.takeRequest, hq] at h
        refine .inr (.inl ⟨hr, hp, q, rest, rfl, ?_⟩)
        split at h
        · rename_i e he; injection h with h; exact .inl ⟨e, he, h.symm⟩
        · rename_i i hi; exact .inr ⟨i, hi, h⟩
    · rename_i hp
      split at h
      · cases h
      · rename_i c hc
        split_ifs at h with hd
        exact .inr (.inr ⟨hr, hp, c, hc, hd, h⟩)

/-- What the start of an exchange can do on an accepted state whose context owes nothing. -/
theorem exchange_accept {c : OpContext} {head : Byte} {command parameter : Bytes} (s : State) :
    (∃ f, encodeShort head command parameter = .ok f ∧ f.length = 14 ∧
      s.accept.exchange c (encodeShort head command parameter) = s.started c f) ∨
    (∃ e, encodeShort head command parameter = .error e ∧
      s.accept.exchange c (encodeShort head command parameter) =
        s.answered (.err e.kind (e.info c.index c.sentHead))) := by
  rcases State.exchange_cases c (encodeShort head command parameter) s.accept with
    ⟨f, h1, h2⟩ | ⟨e, h1, h2⟩
  · exact .inl ⟨f, h1, encodeShort_length h1, h2⟩
  · refine .inr ⟨e, h1, ?_⟩
    obtain ⟨r, rfl⟩ := encodeShort_eq_error h1
    rw [h2]
    exact State.raise_plain rfl _ _ (s := s.accept) (by rintro _ ⟨⟩)

/-- Everything an operation can do at an idle engine: answer at once, or send its first frame. -/
theorem exec_idle {i : Instr} {s t : State} (hp : s.phase = .idle) (h : exec i s = .next t) :
    (∃ o, t = s.answered o) ∨
    (i = .attach ∧ s.lifecycle = .disconnected ∧
      t = { s.answered (.ok .none) with lifecycle := .rawMode }) ∨
    (i = .detach ∧ t = (s.answered (.ok .none)).sessionLost) ∨
    (isDevice i = true ∧ s.lifecycle ≠ .disconnected ∧ ∃ c f, c.request = i ∧ c.owe = none ∧
      c.failure = none ∧ f.length = 14 ∧ t = s.started c f) := by
  have pure : ∀ r : Except Raised Result, (∀ e, r = .error e → e.kind.fatal = false) →
      ∃ o, s.accept.answer r = s.answered o :=
    fun r hr => ⟨_, State.answer_accept hr s⟩
  have mapped : ∀ {α : Type} (r : Except Raised α) (f : α → Result),
      (∀ e, r = .error e → e.kind.fatal = false) → ∃ o, s.accept.answer (r.map f) = s.answered o := by
    intro α r f hr
    refine pure _ ?_
    intro e he
    cases r with
    | ok v => cases he
    | error e' => injection he with he; subst he; exact hr _ rfl
  have illegal : s.accept.raise .illegalState 0 noHead =
      s.answered (.err .illegalState ⟨0, 0, 0, noHead⟩) := rfl
  have started : ∀ {c : OpContext} {head : Byte} {command parameter : Bytes},
      c.request = i → c.owe = none → c.failure = none → isDevice i = true →
      s.lifecycle ≠ .disconnected → s.accept.exchange c (encodeShort head command parameter) = t →
      (∃ o, t = s.answered o) ∨ (isDevice i = true ∧ s.lifecycle ≠ .disconnected ∧ ∃ c f,
        c.request = i ∧ c.owe = none ∧ c.failure = none ∧ f.length = 14 ∧ t = s.started c f) := by
    intro c head command parameter h1 h2 h3 hd hl h4
    rcases exchange_accept (c := c) (head := head) (command := command) (parameter := parameter) s
      with ⟨f, -, hf, h5⟩ | ⟨e, -, h5⟩
    · exact .inr ⟨hd, hl, c, f, h1, h2, h3, hf, by rw [← h4, h5]⟩
    · exact .inl ⟨_, by rw [← h4, h5]⟩
  have lift : ((∃ o, t = s.answered o) ∨ (isDevice i = true ∧ s.lifecycle ≠ .disconnected ∧ ∃ c f,
        c.request = i ∧ c.owe = none ∧ c.failure = none ∧ f.length = 14 ∧ t = s.started c f)) →
      (∃ o, t = s.answered o) ∨
      (i = .attach ∧ s.lifecycle = .disconnected ∧
        t = { s.answered (.ok .none) with lifecycle := .rawMode }) ∨
      (i = .detach ∧ t = (s.answered (.ok .none)).sessionLost) ∨
      (isDevice i = true ∧ s.lifecycle ≠ .disconnected ∧ ∃ c f, c.request = i ∧ c.owe = none ∧
        c.failure = none ∧ f.length = 14 ∧ t = s.started c f) := by
    rintro (h | h)
    · exact .inl h
    · exact .inr (.inr (.inr h))
  cases i with
  | attach =>
    simp only [exec, execAttach] at h
    split_ifs at h with hl
    · injection h with h; exact .inr (.inl ⟨rfl, hl, h.symm⟩)
    · injection h with h; exact .inl ⟨_, h.symm⟩
  | detach => injection h with h; exact .inr (.inr (.inl ⟨rfl, h.symm⟩))
  | readState => injection h with h; exact .inl ⟨_, h.symm⟩
  | enterRemote =>
    simp only [exec, execEnterRemote, hp, Host.Outcome.next.injEq, enterRemoteStart] at h
    split_ifs at h with hl
    · exact lift (started (c := frameContext _ 0 0 _ _) rfl rfl rfl rfl (by simp [hl]) h)
    · exact .inl ⟨_, h.symm⟩
  | configureAndRead heads hold ccf range =>
    simp only [exec, execConfigureAndRead, hp, Host.Outcome.next.injEq, configureAndReadStart] at h
    split_ifs at h with hl
    · split at h
      · rename_i e he
        refine .inl ⟨.err e.kind (e.info 0 noHead), ?_⟩
        rw [← h]
        rcases selectRange_eq_error he with rfl | rfl <;> rfl
      · unfold serveHead at h
        split at h
        · exact .inl ⟨_, h.symm⟩
        · exact lift (started (c := frameContext _ 0 _ _ _) rfl rfl rfl rfl (by simp [hl]) h)
    · exact .inl ⟨_, h.symm⟩
  | setHold flag =>
    simp only [exec, execSetHold, hp, Host.Outcome.next.injEq] at h
    unfold setHoldStart at h
    by_cases hl : s.lifecycle = .remoteMode
    all_goals simp only [hl, if_true, if_false] at h
    · exact lift (started (c := frameContext _ 0 0 _ _) rfl rfl rfl rfl (by simp [hl]) h)
    · exact .inl ⟨_, h.symm⟩
  | clearIntegrated head =>
    simp only [exec, execClearIntegrated, hp, Host.Outcome.next.injEq, clearIntegratedStart] at h
    split_ifs at h with hl
    · exact lift (started (c := frameContext _ 0 0 _ _) rfl rfl rfl rfl (by simp [hl]) h)
    · exact .inl ⟨_, h.symm⟩
  | computeBcc span =>
    injection h with h; rw [← h]
    refine .inl (pure _ ?_)
    intro e he; unfold computeBcc at he; split_ifs at he; injection he with he; subst he; rfl
  | encodeShort head command parameter =>
    injection h with h; rw [← h]
    refine .inl (mapped _ _ ?_)
    intro e he; obtain ⟨r, rfl⟩ := encodeShort_eq_error he; rfl
  | decodeShort f =>
    injection h with h; rw [← h]
    refine .inl (mapped _ _ ?_)
    intro e he; rcases decodeShort_eq_error he with rfl | ⟨r, rfl⟩ <;> rfl
  | decodeLong f =>
    injection h with h; rw [← h]
    refine .inl (mapped _ _ ?_)
    intro e he; rcases decodeLong_eq_error he with rfl | ⟨r, rfl⟩ <;> rfl
  | classifyStatus f =>
    injection h with h; rw [← h]
    refine .inl (mapped _ _ ?_)
    intro e he; rcases classifyStatus_eq_error he with rfl | rfl <;> rfl
  | decodeMeasurement f =>
    injection h with h; rw [← h]
    refine .inl (mapped _ _ ?_)
    intro e he; rcases decodeMeasurement_eq_error he with rfl | rfl <;> rfl
  | selectRange f =>
    injection h with h; rw [← h]
    refine .inl (mapped _ _ ?_)
    intro e he; rcases selectRange_eq_error he with rfl | rfl <;> rfl
  | packReadParam a b f =>
    injection h with h; rw [← h]
    refine .inl (mapped _ _ ?_)
    intro e he
    unfold packReadParam at he
    split at he
    · rename_i he'; injection he with he; subst he
      rcases selectRange_eq_error he' with rfl | rfl <;> rfl
    · cases he

/-- What a device operation does after a `Send` that the transport took whole. -/
def afterSend (i : Instr) (c : OpContext) (u t : State) : Prop :=
  (∃ n k, replyKindOf i = some n ∧ settleKindOf i = some k ∧
    t = { u with cur := some { c with owe := some k }, phase := .awaitRecv n }) ∨
  (∃ flag, i = .setHold flag ∧ u.params.holdExpectsReply = false ∧
    t = { u with held := heldOf flag, cur := some { c with owe := some .hold },
                 settlePending := true, phase := .awaitSettle .hold }) ∨
  (∃ head, i = .clearIntegrated head ∧ t = u.ended (.ok .none))

/-- What a device operation does with a whole reply `b`: raise, or, on a reply that decodes, succeed. -/
def afterReply (i : Instr) (c : OpContext) (b : Bytes) (u t : State) : Prop :=
  (∃ e, t = u.raise e c.index c.sentHead) ∨
  (i = .enterRemote ∧ (∃ r, decodeShort u.params b = .ok r ∧ echoMismatch c r = none) ∧
    t = { u with lifecycle := .remoteMode, settlePending := true, phase := .awaitSettle .mode }) ∨
  (∃ heads hold ccf range r, i = .configureAndRead heads hold ccf range ∧
    judgeReading u.params c b = .ok r ∧
    t = { u with results := u.results ++ [r], settlePending := true, phase := .awaitSettle .read }) ∨
  (∃ flag, i = .setHold flag ∧ (∃ r, decodeShort u.params b = .ok r) ∧
    t = { u with held := heldOf flag, settlePending := true, phase := .awaitSettle .hold })

/-- The echo is right exactly where head, command and parameter are (R138). -/
theorem echoMismatch_eq_none {c : OpContext} {r : ShortFields} :
    echoMismatch c r = none ↔
      r.head.val = c.sentHead.toNat ∧ r.command = c.sentCommand ∧ r.parameter = spaces 4 := by
  unfold echoMismatch
  split_ifs with h1 h2 h3 <;> simp_all

/-- What a device operation does after a settle, if it has not failed. -/
def afterSettle (i : Instr) (c : OpContext) (u t : State) : Prop :=
  t = u.ended (.ok .none) ∨
  (∃ e k h, e.kind.fatal = false ∧ t = u.ended (.err e.kind (Raised.info e k h))) ∨
  (∃ heads hold ccf range c' f, i = .configureAndRead heads hold ccf range ∧
    c' = frameContext i (c.index + 1) c.rangeCode c'.sentHead u.params.cmdRead ∧ f.length = 14 ∧
    t = { u with cur := some c', txBuf := some f, phase := .awaitSend, txStream := u.txStream ++ f })

/-- Everything a device operation can do in a wait. -/
theorem exec_busy {i : Instr} {s t : State} {c : OpContext} (hd : isDevice i = true)
    (hp : s.phase ≠ .idle) (hc : s.cur = some c) (h : exec i s = .next t) :
    (s.phase = .awaitSend ∧
      ((s.sendAnswers = [] ∧ t = s) ∨
       ∃ a rest, s.sendAnswers = a :: rest ∧
        ((∃ reason, judgeSend a = some reason ∧
            t = (s.sendTaken rest).raise (.transport reason) c.index c.sentHead) ∨
         (a = .count 14 ∧ afterSend i c (s.sendTaken rest) t)))) ∨
    (∃ n, s.phase = .awaitRecv n ∧ replyKindOf i = some n ∧
      ((s.recvAnswers = [] ∧ t = s) ∨
       ∃ a rest, s.recvAnswers = a :: rest ∧
        ((judgeReceive n a = none ∧
            t = ({ s with recvAnswers := rest } : State).raise (.transport .receiveFailed) c.index
              c.sentHead) ∨
         (∃ b, a = .bytes b ∧ b.length = n.length ∧ afterReply i c b (s.replyTaken b rest) t)))) ∨
    (∃ k, s.phase = .awaitSettle k ∧ settleKindOf i = some k ∧
      ((∃ g, c.failure = some g ∧
          t = ({ s with settlePending := false } : State).ended (.err g.kind g.info)) ∨
       (c.failure = none ∧ afterSettle i c
          { s with settlePending := false, cur := some { c with owe := none } } t))) := by
  have send : ∀ {next : OpContext → State → State}, s.phase = .awaitSend →
      s.onSendAnswer next = .next t →
      (∀ rest, t = next c (s.sendTaken rest) → afterSend i c (s.sendTaken rest) t) →
      (s.phase = .awaitSend ∧
      ((s.sendAnswers = [] ∧ t = s) ∨
       ∃ a rest, s.sendAnswers = a :: rest ∧
        ((∃ reason, judgeSend a = some reason ∧
            t = (s.sendTaken rest).raise (.transport reason) c.index c.sentHead) ∨
         (a = .count 14 ∧ afterSend i c (s.sendTaken rest) t)))) := by
    intro next hp' h' hn
    obtain ⟨c', h1, h2⟩ := State.onSendAnswer_next h'
    obtain rfl : c = c' := by rw [hc] at h1; exact Option.some.inj h1
    refine ⟨hp', ?_⟩
    rcases h2 with h2 | ⟨a, rest, h3, h4 | ⟨h4, h5⟩⟩
    · exact .inl h2
    · exact .inr ⟨a, rest, h3, .inl h4⟩
    · exact .inr ⟨a, rest, h3, .inr ⟨h4, hn rest h5⟩⟩
  have receive : ∀ {n : ReplyKind} {next : OpContext → Bytes → State → State},
      s.onReceiveAnswer n next = .next t →
      (∀ b rest, t = next c b (s.replyTaken b rest) → afterReply i c b (s.replyTaken b rest) t) →
      ((s.recvAnswers = [] ∧ t = s) ∨
       ∃ a rest, s.recvAnswers = a :: rest ∧
        ((judgeReceive n a = none ∧
            t = ({ s with recvAnswers := rest } : State).raise (.transport .receiveFailed) c.index
              c.sentHead) ∨
         (∃ b, a = .bytes b ∧ b.length = n.length ∧ afterReply i c b (s.replyTaken b rest) t))) := by
    intro n next h' hn
    obtain ⟨c', h1, h2⟩ := State.onReceiveAnswer_next h'
    obtain rfl : c = c' := by rw [hc] at h1; exact Option.some.inj h1
    rcases h2 with h2 | ⟨a, rest, h3, h4 | ⟨b, h4, h5, h6⟩⟩
    · exact .inl h2
    · exact .inr ⟨a, rest, h3, .inl h4⟩
    · exact .inr ⟨a, rest, h3, .inr ⟨b, h4, h5, hn b rest h6⟩⟩
  have settle : ∀ {next : OpContext → State → State},
      s.onElapsed next = .next t →
      (∀ u, u = { s with settlePending := false, cur := some { c with owe := none } } →
        t = next c u → afterSettle i c u t) →
      ((∃ g, c.failure = some g ∧
          t = ({ s with settlePending := false } : State).ended (.err g.kind g.info)) ∨
       (c.failure = none ∧ afterSettle i c
          { s with settlePending := false, cur := some { c with owe := none } } t)) := by
    intro next h' hn
    obtain ⟨c', h1, h2⟩ := State.onElapsed_next h'
    obtain rfl : c = c' := by rw [hc] at h1; exact Option.some.inj h1
    rcases h2 with h2 | ⟨h2, h3⟩
    · exact .inl h2
    · exact .inr ⟨h2, hn _ rfl h3⟩
  cases i <;> simp only [isDevice, Bool.false_eq_true] at hd
  case enterRemote =>
    cases hs : s.phase with
    | idle => exact absurd hs hp
    | awaitSend =>
      simp only [exec, execEnterRemote, hs] at h
      have := send hs h fun rest e => .inl ⟨.short, .mode, rfl, rfl, by
        rw [e, State.receive, State.oweSettle]; simp [State.sendTaken, hc]⟩
      exact .inl ⟨rfl, this.2⟩
    | awaitRecv n =>
      cases n with
      | long => simp [exec, execEnterRemote, hs] at h
      | short =>
        simp only [exec, execEnterRemote, hs] at h
        refine .inr (.inl ⟨.short, rfl, rfl, receive h fun b rest e => ?_⟩)
        unfold enterRemoteReply at e
        split at e
        · exact .inl ⟨_, e⟩
        · rename_i r hr
          split at e
          · exact .inl ⟨_, e⟩
          · rename_i hm
            exact .inr (.inl ⟨rfl, ⟨r, hr, hm⟩, e⟩)
    | awaitSettle k =>
      cases k <;> simp only [exec, execEnterRemote, hs, reduceCtorEq] at h
      exact .inr (.inr ⟨.mode, rfl, rfl, settle h fun u _ e => .inl e⟩)
  case configureAndRead heads hold ccf range =>
    cases hs : s.phase with
    | idle => exact absurd hs hp
    | awaitSend =>
      simp only [exec, execConfigureAndRead, hs] at h
      have := send hs h fun rest e => .inl ⟨.long, .read, rfl, rfl, by
        rw [e, State.receive, State.oweSettle]; simp [State.sendTaken, hc]⟩
      exact .inl ⟨rfl, this.2⟩
    | awaitRecv n =>
      cases n with
      | short => simp [exec, execConfigureAndRead, hs] at h
      | long =>
        simp only [exec, execConfigureAndRead, hs] at h
        refine .inr (.inl ⟨.long, rfl, rfl, receive h fun b rest e => ?_⟩)
        unfold configureAndReadReply at e
        split at e
        · exact .inl ⟨_, e⟩
        · rename_i r hr
          exact .inr (.inr (.inl ⟨_, _, _, _, r, rfl, hr, e⟩))
    | awaitSettle k =>
      cases k <;> simp only [exec, execConfigureAndRead, hs, reduceCtorEq] at h
      refine .inr (.inr ⟨.read, rfl, rfl, settle h fun u hu e => ?_⟩)
      unfold serveHead at e
      split at e
      · exact .inl e
      · rename_i head _
        rcases State.exchange_cases (frameContext (.configureAndRead heads hold ccf range)
            (c.index + 1) c.rangeCode head u.params.cmdRead) (encodeShort head u.params.cmdRead
            (readParam u.params hold ccf c.rangeCode)) u with ⟨f, h1, h2⟩ | ⟨e', h1, h2⟩
        · exact .inr (.inr ⟨_, _, _, _, _, f, rfl, rfl, encodeShort_length h1, e.trans h2⟩)
        · obtain ⟨r, rfl⟩ := encodeShort_eq_error h1
          refine .inr (.inl ⟨.format r, c.index + 1, head, rfl, e.trans (h2.trans ?_)⟩)
          refine State.raise_plain rfl _ _ ?_
          rintro _ hx; subst hu; cases hx; rfl
  case setHold flag =>
    cases hs : s.phase with
    | idle => exact absurd hs hp
    | awaitSend =>
      simp only [exec, execSetHold, hs] at h
      have := send hs h fun rest e => ?_
      · exact .inl ⟨rfl, this.2⟩
      unfold setHoldSent at e
      split_ifs at e with hq
      · refine .inl ⟨.short, .hold, rfl, rfl, ?_⟩
        rw [e, State.receive, State.oweSettle]; simp [State.sendTaken, hc]
      · refine .inr (.inl ⟨flag, rfl, by simpa using hq, ?_⟩)
        rw [e, setHoldDone, State.settle, State.oweSettle]; simp [State.sendTaken, hc]
    | awaitRecv n =>
      cases n with
      | long => simp [exec, execSetHold, hs] at h
      | short =>
        simp only [exec, execSetHold, hs] at h
        refine .inr (.inl ⟨.short, rfl, rfl, receive h fun b rest e => ?_⟩)
        unfold setHoldReply at e
        split at e
        · exact .inl ⟨_, e⟩
        · rename_i r hr
          exact .inr (.inr (.inr ⟨_, rfl, ⟨r, hr⟩, e⟩))
    | awaitSettle k =>
      cases k <;> simp only [exec, execSetHold, hs, reduceCtorEq] at h
      exact .inr (.inr ⟨.hold, rfl, rfl, settle h fun u _ e => .inl e⟩)
  case clearIntegrated head =>
    cases hs : s.phase with
    | idle => exact absurd hs hp
    | awaitSend =>
      simp only [exec, execClearIntegrated, hs] at h
      have := send hs h fun rest e => .inr (.inr ⟨head, rfl, e⟩)
      exact .inl ⟨rfl, this.2⟩
    | awaitRecv n => simp [exec, execClearIntegrated, hs] at h
    | awaitSettle k => simp [exec, execClearIntegrated, hs] at h

end Sys2Proof.Machine
end

