-- ==== Sys2Proof/Machine/Assembler.lean ====
section
/-! DEFINITION. The textual form of host requests and of the pseudo-operations, 30_encoding.md R82 and
R83. What R82 leaves open of the spelling is the model's choice, log 21. -/

namespace Sys2Proof.Machine

/-- A token of an assembler line; a number keeps the digits it is written with. -/
inductive Token
  | word (w : List Char) | num (digits : List Char) | str (s : Bytes) | openList | closeList | comma
  deriving DecidableEq, Repr

/-- The byte of a character. -/
def charByte (c : Char) : Byte := BitVec.ofNat 8 c.toNat

/-- The text after a given beginning. -/
def stripFront : List Char → List Char → Option (List Char)
  | [], cs => some cs
  | _ :: _, [] => none
  | p :: ps, c :: cs => if p = c then stripFront ps cs else none

/-- The control-character names that may appear inside a string (R82). -/
def controlNames : List (List Char × Byte) :=
  [(['<', 'S', 'T', 'X', '>'], Chars.STX), (['<', 'E', 'T', 'X', '>'], Chars.ETX),
   (['<', 'C', 'R', '>'], Chars.CR), (['<', 'L', 'F', '>'], Chars.LF)]

/-- A control-character name at the front of the text. -/
def lexControl (cs : List Char) : Option (Byte × List Char) :=
  controlNames.findSome? fun q => (stripFront q.1 cs).map fun rest => (q.2, rest)

/-- The digit that a character of `\xHH` stands for, as `HEXDIGIT` of R59 has it. DESIGN CHOICE: R82 does
not state the letter case, and both are taken, `A`..`F` as `a`..`f`; a character outside ASCII is no
digit (log 21). -/
def hexChar (c : Char) : Option (Fin 16) :=
  if c.toNat ≤ 0x7F then hexval? (charByte c) else none

/-- What follows a backslash: `xHH`, a double quote or a backslash (R82). -/
def lexEscape : List Char → Option (Byte × List Char)
  | [] => none
  | c :: rest =>
    if c = '"' ∨ c = '\\' then some (charByte c, rest)
    else if c = 'x' then
      match rest with
      | a :: b :: tail =>
        match hexChar a, hexChar b with
        | some x, some y => some (BitVec.ofNat 8 (16 * x.val + y.val), tail)
        | _, _ => none
      | _ => none
    else none

/-- The rest of a string after its opening quote: the bytes, and the text after the closing quote. -/
def lexString : Nat → List Char → Option (Bytes × List Char)
  | 0, _ => none
  | _ + 1, [] => none
  | n + 1, c :: rest =>
    if c = '"' then some ([], rest)
    else
      match (if c = '\\' then lexEscape rest
             else
               match lexControl (c :: rest) with
               | some q => some q
               | none =>
                 if 0x20 ≤ c.toNat ∧ c.toNat ≤ 0x7E then some (charByte c, rest) else none) with
      | none => none
      | some (b, tail) => (lexString n tail).map fun q => (b :: q.1, q.2)

/-- A decimal digit character. -/
def isDecimal (c : Char) : Bool := decide (0x30 ≤ c.toNat ∧ c.toNat ≤ 0x39)

/-- A character of a mnemonic: a capital letter, a decimal digit or an underscore. -/
def isWordChar (c : Char) : Bool :=
  decide (0x41 ≤ c.toNat ∧ c.toNat ≤ 0x5A) || isDecimal c || decide (c = '_')

/-- The number that decimal digits spell. -/
def decimalValue (ds : List Char) : Nat := ds.foldl (fun acc c => 10 * acc + (c.toNat - 0x30)) 0

/-- The tokens of a line; a comment starts with `;` (R82). -/
def lexLine : Nat → List Char → Option (List Token)
  | 0, _ => none
  | _ + 1, [] => some []
  | n + 1, c :: rest =>
    if c = ' ' ∨ c = '\t' then lexLine n rest
    else if c = ';' then some []
    else if c = '[' then (lexLine n rest).map (.openList :: ·)
    else if c = ']' then (lexLine n rest).map (.closeList :: ·)
    else if c = ',' then (lexLine n rest).map (.comma :: ·)
    else if c = '"' then
      match lexString (rest.length + 1) rest with
      | some (s, tail) => (lexLine n tail).map (.str s :: ·)
      | none => none
    else if isDecimal c then
      (lexLine n (rest.dropWhile isDecimal)).map
        (.num (c :: rest.takeWhile isDecimal) :: ·)
    else if isWordChar c then
      (lexLine n (rest.dropWhile isWordChar)).map (.word (c :: rest.takeWhile isWordChar) :: ·)
    else none

/-- A head operand: a decimal integer 0..255 (R82). DESIGN CHOICE: R82 does not say whether a decimal
integer may begin with zeros, and `007` is taken as 7 (log 21). -/
def headOperand (digits : List Char) : Option Byte :=
  if decimalValue digits ≤ 255 then some (BitVec.ofNat 8 (decimalValue digits)) else none

/-- A flag operand: the one character `0` or `1` (R82); `00` and `01` are no flags. -/
def flagOperand (digits : List Char) : Option Bool :=
  if digits = ['0'] then some false else if digits = ['1'] then some true else none

/-- The heads after the first of a bracketed list, and the tokens after its closing bracket. -/
def listTail : List Token → Option (List Byte × List Token)
  | .closeList :: rest => some ([], rest)
  | .comma :: .num n :: rest =>
    match headOperand n, listTail rest with
    | some h, some (hs, tail) => some (h :: hs, tail)
    | _, _ => none
  | _ => none

/-- A bracketed list of heads (R82). DESIGN CHOICE: `[]` writes the empty list, which R139 serves and R82
does not spell (log 21). -/
def listOperand : List Token → Option (List Byte × List Token)
  | .openList :: .closeList :: rest => some ([], rest)
  | .openList :: .num n :: rest =>
    match headOperand n, listTail rest with
    | some h, some (hs, tail) => some (h :: hs, tail)
    | _, _ => none
  | _ => none

/-- The operations of a line's mnemonic and operands: one for a host operation (R82), its expansion for
a pseudo-operation (R83). -/
def parseOperation (w : List Char) (args : List Token) : Option (List Instr) :=
  if w = "ATTACH".toList then (if args = [] then some [.attach] else none)
  else if w = "DETACH".toList then (if args = [] then some [.detach] else none)
  else if w = "READ_STATE".toList then (if args = [] then some [.readState] else none)
  else if w = "ENTER_REMOTE".toList then (if args = [] then some [.enterRemote] else none)
  else if w = "CONNECT".toList then (if args = [] then some Pseudo.connect.expand else none)
  else if w = "HOLD".toList then (if args = [] then some Pseudo.hold.expand else none)
  else if w = "RUN".toList then (if args = [] then some Pseudo.run.expand else none)
  else if w = "RECONNECT".toList then (if args = [] then some Pseudo.reconnect.expand else none)
  else if w = "CONFIGURE_AND_READ".toList then
    match listOperand args with
    | some (heads, [.comma, .num h, .comma, .num c, .comma, .str range]) =>
      match flagOperand h, flagOperand c with
      | some hold, some ccf => some [.configureAndRead heads hold ccf range]
      | _, _ => none
    | _ => none
  else
    match args with
    | [.num n] =>
      if w = "SET_HOLD".toList then (flagOperand n).map fun f => [.setHold f]
      else if w = "CLEAR_INTEGRATED".toList then (headOperand n).map fun h => [.clearIntegrated h]
      else none
    | [.str s] =>
      if w = "COMPUTE_BCC".toList then some [.computeBcc s]
      else if w = "DECODE_SHORT".toList then some [.decodeShort s]
      else if w = "DECODE_LONG".toList then some [.decodeLong s]
      else if w = "CLASSIFY_STATUS".toList then some [.classifyStatus s]
      else if w = "DECODE_MEASUREMENT".toList then some [.decodeMeasurement s]
      else if w = "SELECT_RANGE".toList then some [.selectRange s]
      else none
    | [.num n, .comma, .str s] =>
      if w = ['R', 'E', 'A', 'D', '1'] then (headOperand n).map fun h => (Pseudo.read1 h s).expand
      else none
    | [.num n, .comma, .str command, .comma, .str parameter] =>
      if w = "ENCODE_SHORT".toList then (headOperand n).map fun h => [.encodeShort h command parameter]
      else none
    | [.num h, .comma, .num c, .comma, .str range] =>
      if w = "PACK_READ_PARAM".toList then
        match flagOperand h, flagOperand c with
        | some hold, some ccf => some [.packReadParam hold ccf range]
        | _, _ => none
      else none
    | _ => none

/-- The operations of one line; an empty or comment line has none. -/
def parseLine (cs : List Char) : Option (List Instr) :=
  match lexLine (cs.length + 1) cs with
  | some [] => some []
  | some (.word w :: args) => parseOperation w args
  | _ => none

/-- Every string and list operand fits its length byte (R74). -/
def encodable (i : Instr) : Bool :=
  i.operands.all fun o =>
    match o with
    | .str s => decide (s.length ≤ 255)
    | .list l => decide (l.length ≤ 255)
    | _ => true

/-- The request bytes that one line assembles to (R82). -/
def assembleLine (cs : List Char) : Option (List Bytes) :=
  match parseLine cs with
  | some is => if is.all encodable then some (is.map encode) else none
  | none => none

/-- The request bytes of a text, one request per line (R82). -/
def assembleText (cs : List Char) : Option (List Bytes) :=
  ((cs.splitOn '\n').mapM assembleLine).map List.flatten

end Sys2Proof.Machine
end

