-- ==== Sys2Proof/Tests/Slice0.lean ====
section
/-! SUPPORT. Tests on fixed values, expected results from 95_test_vectors.md and the worked frames of
42_session.md, and for each statement with hypotheses a witness that meets them. Profile P0 of
93_implementation_defined.md part 3 is no fact: it only gives the tests a parameter set. -/

namespace Sys2Proof.Tests

open Sys2Proof Sys2Proof.Machine

/-- The bytes of a text (R58). -/
def text (s : String) : Bytes := s.toList.map charByte

/-- Profile P0, with settle durations of 1. -/
def p0 : Params where
  cmdMode := text "54"
  cmdRead := text "10"
  cmdHold := text "55"
  cmdClear := text "28"
  modeHead := 0
  holdHead := 99
  paramRemote := text "1   "
  holdParamOn := text "1   "
  holdParamOff := text "0   "
  clearParam := text "    "
  holdFlagOn := 0x31
  holdFlagOff := 0x30
  ccfFlagOn := 0x33
  ccfFlagOff := 0x32
  rangeCodeAuto := 0x30
  rangeCode1 := 0x31
  rangeCode2 := 0x32
  rangeCode3 := 0x33
  rangeCode4 := 0x34
  rangeCode5 := 0x35
  readPad := 0x30
  holdExpectsReply := false
  checkFraming := false
  maxHeads := 30
  maxBccSpan := 255
  maxFrameIn := 255
  maxRangeLen := 16
  settleMode := 1
  settleRead := 1
  settleHold := 1

/-- P0 with both decided parameters turned. -/
def p1 : Params := { p0 with holdExpectsReply := true, checkFraming := true }

/-- The engine Idle in a given LIFECYCLE under P0. -/
def idle (l : Lifecycle) : State := { State.reset with params := p0, lifecycle := l }

/-- `idle` with a request at the port. -/
def asked (l : Lifecycle) (request : Bytes) : State := { idle l with hostPort := [request] }

/-- The context of an exchange in progress with a given head. -/
def context (i : Instr) (head : Byte) (command : Bytes) (owe : Option SettleKind) : OpContext :=
  { frameContext i 0 0x30 head command with owe := owe }

/-- The engine in a wait. -/
def waiting (l : Lifecycle) (phase : Phase) (c : OpContext) : State :=
  { idle l with phase := phase, cur := some c, settlePending := phase.settling }

/-- `s` with answers of the transport. -/
def answering (sends : List SendAnswer) (receives : List RecvAnswer) (s : State) : State :=
  { s with sendAnswers := sends, recvAnswers := receives }

/-- The next state, if there is one. -/
def nextOf : Host.Outcome State Fault Refusal → Option State
  | .next t => some t
  | _ => none

/-- The outcome delivered by the next state. -/
def delivered (o : Host.Outcome State Fault Refusal) : Option OpOutcome := (nextOf o).bind (·.outcome)

/-- CONFIGURE_AND_READ [1], 0, 0, "auto". -/
def readOne : Instr := .configureAndRead [1] false false (text "auto")

/-- The mode-switch frame of R137's example. -/
def modeFrame : Bytes := [0x02, 0x30, 0x30, 0x35, 0x34, 0x31, 0x20, 0x20, 0x20, 0x03, 0x31, 0x33, 0x0D, 0x0A]

/-- Its echo. -/
def modeEcho : Bytes := [0x02, 0x30, 0x30, 0x35, 0x34, 0x20, 0x20, 0x20, 0x20, 0x03, 0x30, 0x32, 0x0D, 0x0A]

/-- The read frame of R139's example. -/
def readFrame : Bytes := [0x02, 0x30, 0x31, 0x31, 0x30, 0x30, 0x32, 0x30, 0x30, 0x03, 0x30, 0x31, 0x0D, 0x0A]

/-- A long frame to head 1 with command 10, no second and third reading (R64). -/
def longFrame (status d1 check : String) : Bytes :=
  [0x02] ++ text "0110" ++ text status ++ text d1 ++ spaces 12 ++ [0x03] ++ text check ++ [0x0D, 0x0A]

/-- The reply of R139's example. -/
def readReply : Bytes := longFrame "   0" " 12342" "05"

/-- The waits of ENTER_REMOTE, CONFIGURE_AND_READ and SET_HOLD 1 for their replies. -/
def modeWait : State := waiting .rawMode (.awaitRecv .short) (context .enterRemote 0 p0.cmdMode (some .mode))
def readWait : State := waiting .remoteMode (.awaitRecv .long) (context readOne 1 p0.cmdRead (some .read))
def holdWait : State :=
  { waiting .remoteMode (.awaitRecv .short) (context (.setHold true) 99 p0.cmdHold (some .hold)) with
    params := p1 }

/-! ### Well-formedness: every check refuses an ill-formed operation, and its bound is allowed -/

theorem test_wf_heads : (Instr.configureAndRead (spaces 31) false false []).wellFormed p0 = false ∧
    (Instr.configureAndRead (spaces 30) false false []).wellFormed p0 = true := by decide
theorem test_wf_readRange : (Instr.configureAndRead [] false false (spaces 17)).wellFormed p0 = false ∧
    (Instr.configureAndRead [] false false (spaces 16)).wellFormed p0 = true := by decide
theorem test_wf_span : (Instr.computeBcc (spaces 256)).wellFormed p0 = false ∧
    (Instr.computeBcc (spaces 255)).wellFormed p0 = true := by decide +kernel
theorem test_wf_command : (Instr.encodeShort 0 (spaces 256) []).wellFormed p0 = false := by decide +kernel
theorem test_wf_parameter : (Instr.encodeShort 0 [] (spaces 256)).wellFormed p0 = false := by decide +kernel
theorem test_wf_shortFrame : (Instr.decodeShort (spaces 256)).wellFormed p0 = false := by decide +kernel
theorem test_wf_longFrame : (Instr.decodeLong (spaces 256)).wellFormed p0 = false := by decide +kernel
theorem test_wf_status : (Instr.classifyStatus (spaces 256)).wellFormed p0 = false := by decide +kernel
theorem test_wf_field : (Instr.decodeMeasurement (spaces 256)).wellFormed p0 = false := by decide +kernel
theorem test_wf_range : (Instr.selectRange (spaces 17)).wellFormed p0 = false := by decide
theorem test_wf_packRange : (Instr.packReadParam true true (spaces 17)).wellFormed p0 = false := by decide

/-! ### Decoding: the request bytes written out from R74 and R76 -/

theorem test_decode_attach : decodeRequest p0 [0x01] = .ok .attach := by decide
theorem test_decode_detach : decodeRequest p0 [0x02] = .ok .detach := by decide
theorem test_decode_readState : decodeRequest p0 [0x03] = .ok .readState := by decide
theorem test_decode_enterRemote : decodeRequest p0 [0x10] = .ok .enterRemote := by decide
/-- R82's assembled example. -/
theorem test_decode_configureAndRead :
    decodeRequest p0 [0x11, 0x01, 0x01, 0x00, 0x00, 0x04, 0x61, 0x75, 0x74, 0x6F] = .ok readOne := by decide
theorem test_decode_configureAndRead_flags :
    decodeRequest p0 [0x11, 0x02, 0x63, 0x00, 0x01, 0x00, 0x01, 0x35] =
      .ok (.configureAndRead [99, 0] true false [0x35]) := by decide
theorem test_decode_setHold : decodeRequest p0 [0x12, 0x01] = .ok (.setHold true) := by decide
theorem test_decode_clearIntegrated : decodeRequest p0 [0x13, 0x07] = .ok (.clearIntegrated 7) := by decide
theorem test_decode_computeBcc :
    decodeRequest p0 [0x20, 0x02, 0x41, 0x42] = .ok (.computeBcc [0x41, 0x42]) := by decide
theorem test_decode_encodeShort :
    decodeRequest p0 [0x21, 0x07, 0x02, 0x31, 0x30, 0x04, 0x31, 0x33, 0x35, 0x31] =
      .ok (.encodeShort 7 [0x31, 0x30] [0x31, 0x33, 0x35, 0x31]) := by decide
theorem test_decode_decodeShort : decodeRequest p0 [0x22, 0x01, 0x02] = .ok (.decodeShort [0x02]) := by decide
theorem test_decode_decodeLong : decodeRequest p0 [0x23, 0x00] = .ok (.decodeLong []) := by decide
theorem test_decode_classifyStatus :
    decodeRequest p0 [0x24, 0x04, 0x20, 0x32, 0x20, 0x30] =
      .ok (.classifyStatus [0x20, 0x32, 0x20, 0x30]) := by decide
theorem test_decode_decodeMeasurement :
    decodeRequest p0 [0x25, 0x02, 0x20, 0x31] = .ok (.decodeMeasurement [0x20, 0x31]) := by decide
theorem test_decode_selectRange :
    decodeRequest p0 [0x26, 0x03, 0x31, 0x35, 0x30] = .ok (.selectRange [0x31, 0x35, 0x30]) := by decide
theorem test_decode_packReadParam :
    decodeRequest p0 [0x27, 0x00, 0x01, 0x01, 0x30] = .ok (.packReadParam false true [0x30]) := by decide
/-- Vectors V-REQ: reserved opcodes before any format check; the format checks of R74. -/
theorem test_decode_reserved :
    [0x00, 0x04, 0x0F, 0x14, 0x1F, 0x28, 0xFF].map (fun b => decodeRequest p0 [b, 0x55]) =
      List.replicate 7 (.error .illegalOp) := by decide
theorem test_decode_malformed :
    [[0x01, 0x00], [0x12], [0x12, 0x02], [0x20, 0x02, 0x41], [0x26, 0x01, 0x35, 0x35]].map
      (fun q => decodeRequest p0 q) = List.replicate 5 (.error (.format .badOperand)) := by decide
/-- The assembler's example of R82. -/
theorem test_assemble_readOne :
    assembleLine "CONFIGURE_AND_READ [1], 0, 0, \"auto\" ; once".toList =
      some [[0x11, 0x01, 0x01, 0x00, 0x00, 0x04, 0x61, 0x75, 0x74, 0x6F]] := by decide
theorem test_assemble_connect : assembleLine "CONNECT".toList = some [[0x01], [0x10]] := by decide
theorem test_assemble_string :
    assembleLine "COMPUTE_BCC \"<ETX>\\x41\\\"\"".toList = some [[0x20, 0x03, 0x03, 0x41, 0x22]] := by decide
/-- R82 with log 21: `\xHH` takes both letter cases and ASCII digits only; a flag is `0` or `1`, no `01`. -/
theorem test_assemble_spelling :
    ["COMPUTE_BCC \"\\x4a\\x4A\"", "COMPUTE_BCC \"\\x4\u0141\"", "SET_HOLD 1", "SET_HOLD 01",
      "CLEAR_INTEGRATED 007"].map (fun l => assembleLine l.toList) =
      [some [[0x20, 0x02, 0x4A, 0x4A]], none, some [[0x12, 0x01]], none, some [[0x13, 0x07]]] := by decide

/-! ### One step of each operation -/

/-- Program P1: the first step of ATTACH from reset, by the table word. -/
theorem test_attach_fromReset :
    ((nextOf (step (State.reset.withFetchWord 8 0x01))).map (·.lifecycle)) = some .rawMode := by decide
theorem test_attach_twice : delivered (exec .attach (idle .rawMode)) =
    some (.err .illegalState ⟨0, 0, 0, 0xFF⟩) := by decide
/-- R135's example. -/
theorem test_detach : (nextOf (exec .detach { idle .remoteMode with held := .held })).map (·.stateByte) =
    some 0x00 := by decide
/-- R136's example. -/
theorem test_readState : delivered (exec .readState { idle .remoteMode with held := .running }) =
    some (.ok (.state 0x06)) := by decide
/-- R137's example, its frame and its echo. -/
theorem test_enterRemote_sends :
    (nextOf (step (asked .rawMode [0x10]))).map (·.txStream) = some modeFrame := by decide
theorem test_enterRemote_echo :
    (nextOf (step (answering [] [.bytes modeEcho] modeWait))).map (fun t => (t.lifecycle, t.phase)) =
      some (.remoteMode, .awaitSettle .mode) := by decide
/-- R139's example, its frame and its record. -/
theorem test_configureAndRead_sends :
    (nextOf (exec readOne (idle .remoteMode))).map (·.txStream) = some readFrame := by decide
theorem test_configureAndRead_record :
    (nextOf (step (answering [] [.bytes readReply] readWait))).map (·.results) =
      some [⟨0, 1, .ok, .nominal, .present false 1234 (-2), .absent, .absent⟩] := by decide
/-- R142's example. -/
theorem test_setHold_sends : (nextOf (exec (.setHold true) (idle .remoteMode))).map (·.txStream) =
    some [0x02, 0x39, 0x39, 0x35, 0x35, 0x31, 0x20, 0x20, 0x20, 0x03, 0x31, 0x32, 0x0D, 0x0A] := by decide
theorem test_setHold_sent : (nextOf (step (answering [.count 14] []
    (waiting .remoteMode .awaitSend (context (.setHold true) 99 p0.cmdHold none))))).map (·.stateByte) =
    some 0x0A := by decide
/-- R143's example. -/
theorem test_clearIntegrated_sends : (nextOf (exec (.clearIntegrated 1) (idle .remoteMode))).map (·.txStream) =
    some [0x02, 0x30, 0x31, 0x32, 0x38, 0x20, 0x20, 0x20, 0x20, 0x03, 0x30, 0x38, 0x0D, 0x0A] := by decide
theorem test_clearIntegrated_done : delivered (step (answering [.count 14] []
    (waiting .remoteMode .awaitSend (context (.clearIntegrated 1) 1 p0.cmdClear none)))) =
    some (.ok .none) := by decide
/-- Vectors BC8 and BC14. -/
theorem test_computeBcc : delivered (exec (.computeBcc (text "abc")) (idle .rawMode)) =
    some (.ok (.bcc 0x60 (text "60"))) := by decide
theorem test_computeBcc_empty : delivered (exec (.computeBcc []) (idle .rawMode)) =
    some (.err .formatError ⟨1, 0, 0, 0xFF⟩) := by decide
/-- Vectors EN7 and EN11. -/
theorem test_encodeShort : delivered (exec (.encodeShort 42 (text "AB") (text "xyz!")) (idle .rawMode)) =
    some (.ok (.frame [0x02, 0x34, 0x32, 0x41, 0x42, 0x78, 0x79, 0x7A, 0x21, 0x03, 0x35, 0x63, 0x0D, 0x0A])) := by
  decide
theorem test_encodeShort_order : delivered (exec (.encodeShort 255 (text "10") (text "020")) (idle .rawMode)) =
    some (.err .formatError ⟨3, 0, 0, 0xFF⟩) := by decide
/-- Vectors DS11 and DS16. -/
theorem test_decodeShort : delivered (exec (.decodeShort
    [0x02, 0x34, 0x32, 0x41, 0x42, 0x78, 0x79, 0x7A, 0x21, 0x03, 0x35, 0x43, 0x0D, 0x0A]) (idle .rawMode)) =
    some (.ok (.short ⟨42, text "AB", text "xyz!"⟩)) := by decide
theorem test_decodeShort_head : delivered (exec (.decodeShort
    [0x02, 0x20, 0x30, 0x35, 0x34, 0x20, 0x20, 0x20, 0x20, 0x03, 0x31, 0x32, 0x0D, 0x0A]) (idle .rawMode)) =
    some (.err .formatError ⟨6, 0, 0, 0xFF⟩) := by decide
/-- Vectors DL9 and DL10. -/
theorem test_decodeLong : delivered (exec (.decodeLong (longFrame "   x" " 12342" "4d")) (idle .rawMode)) =
    some (.ok (.long ⟨1, text "10", text "   x", .present false 1234 (-2), .absent, .absent⟩)) := by decide
theorem test_decodeLong_digit : delivered (exec (.decodeLong (longFrame "   0" " 12A42" "77")) (idle .rawMode)) =
    some (.err .formatError ⟨7, 0, 0, 0xFF⟩) := by decide
/-- Vectors CL10 and CL14. -/
theorem test_classifyStatus : delivered (exec (.classifyStatus (text "X5Y1")) (idle .rawMode)) =
    some (.ok (.status ⟨.overRange, .lowBattery⟩)) := by decide
theorem test_classifyStatus_unknown : delivered (exec (.classifyStatus (text " 1 x")) (idle .rawMode)) =
    some (.err .formatError ⟨8, 0, 0, 0xFF⟩) := by decide
/-- Vectors ME2 and ME16. -/
theorem test_decodeMeasurement : delivered (exec (.decodeMeasurement (text "-12342")) (idle .rawMode)) =
    some (.ok (.reading (.present true 1234 (-2)))) := by decide
theorem test_decodeMeasurement_short : delivered (exec (.decodeMeasurement (text "01234")) (idle .rawMode)) =
    some (.err .formatError ⟨1, 0, 0, 0xFF⟩) := by decide
/-- Vectors RG8, RG9, RG17 and RG20: the band edges. -/
theorem test_selectRange : ["29.99", "29.991", "-0", "5."].map
    (fun r => delivered (exec (.selectRange (text r)) (idle .rawMode))) =
    [0x31, 0x32, 0x31, 0x31].map (fun b => some (.ok (.rangeCode b))) := by decide
theorem test_selectRange_above : delivered (exec (.selectRange (text "299999.01")) (idle .rawMode)) =
    some (.err .rangeError ⟨0, 0, 0, 0xFF⟩) := by decide
/-- Vectors PK3 and PK6. -/
theorem test_packReadParam : delivered (exec (.packReadParam true false (text "29.99")) (idle .rawMode)) =
    some (.ok (.parameter (text "1210"))) := by decide
theorem test_packReadParam_syntax : delivered (exec (.packReadParam false false (text "x")) (idle .rawMode)) =
    some (.err .formatError ⟨9, 0, 0, 0xFF⟩) := by decide

/-! ### Witnesses: for each statement with hypotheses, states and operands that meet them, clause by clause -/

theorem witness_AttachOpensTheSession :
    (idle .disconnected).lifecycle = .disconnected ∧ (idle .rawMode).lifecycle ≠ .disconnected := by decide

theorem witness_IllegalStateChangesNothing :
    ((idle .rawMode).phase = .idle ∧ ¬ legalIn .attach (idle .rawMode).lifecycle) ∧
    ((idle .remoteMode).phase = .idle ∧ ¬ legalIn .enterRemote (idle .remoteMode).lifecycle) ∧
    ((idle .rawMode).phase = .idle ∧ ¬ legalIn readOne (idle .rawMode).lifecycle) ∧
    ((idle .disconnected).phase = .idle ∧ ¬ legalIn (.setHold true) (idle .disconnected).lifecycle) ∧
    ((idle .rawMode).phase = .idle ∧ ¬ legalIn (.clearIntegrated 0) (idle .rawMode).lifecycle) :=
  ⟨⟨rfl, nofun⟩, ⟨rfl, nofun⟩, ⟨rfl, nofun⟩, ⟨rfl, nofun⟩, ⟨rfl, nofun⟩⟩

theorem witness_ComputeBccAnswersValueAndText :
    ((spaces 27).length ≤ ({ p0 with maxBccSpan := 27 } : Params).maxBccSpan ∧ (spaces 27).length ≤ 255) ∧
    (({ p0 with maxBccSpan := 27 } : Params).maxBccSpan < (spaces 28).length ∧ (spaces 28).length ≤ 255) := by
  decide

theorem witness_BccIsOrderFreeXor : ([0x41, 0x42] : Bytes).Perm [0x42, 0x41] := by decide

theorem witness_EncodeShortChecksInOrder :
    ((text "10").length ≤ 255 ∧ (text "0200").length ≤ 255) ∧
    ((text "020").length ≠ 4 ∧ (text "02000").length ≠ 4) ∧
    ((text "0200").length = 4 ∧ 99 < (100 : Byte).toNat) ∧
    ((text "0200").length = 4 ∧ (99 : Byte).toNat ≤ 99 ∧ (text "1").length ≠ 2) ∧
    ((text "0200").length = 4 ∧ (99 : Byte).toNat ≤ 99 ∧ ([0x7F, 0x30] : Bytes).length = 2 ∧
      ∃ b ∈ ([0x7F, 0x30] : Bytes) ++ text "0200", b.toNat < 0x20 ∨ 0x7E < b.toNat) ∧
    ((text "0~ 0").length = 4 ∧ (99 : Byte).toNat ≤ 99 ∧ (text "10").length = 2 ∧
      ∀ b ∈ text "10" ++ text "0~ 0", 0x20 ≤ b.toNat ∧ b.toNat ≤ 0x7E) := by decide

theorem witness_EncodedFrameHasTheShortLayout : encodeShort 1 (text "10") (text "0200") = .ok readFrame := by
  decide

theorem witness_ShortFrameRoundTrip :
    (99 : Byte).toNat ≤ 99 ∧ (text "AB").length = 2 ∧ (text "~ z!").length = 4 ∧
    ∀ b ∈ text "AB" ++ text "~ z!", 0x20 ≤ b.toNat ∧ b.toNat ≤ 0x7E := by decide

/-- The frame a decoder's framing check passes or not. -/
def framedAt (f : Bytes) (etx cr : Nat) : Bool :=
  decide (f[0]? = some 0x02 ∧ f[etx]? = some 0x03 ∧ f[cr]? = some 0x0D ∧ f[cr + 1]? = some 0x0A)

/-- The frame a decoder's BCC check passes or not, stated as the decoder statements state it. -/
abbrev checkedAt (f : Bytes) (etx : Nat) : Prop :=
  ∃ x y : Fin 16, hexval? (f.getD (etx + 1) 0) = some x ∧ hexval? (f.getD (etx + 2) 0) = some y ∧
    16 * x.val + y.val = (bcc (slice f 1 etx)).toNat

/-- Vector DS16's frame: the head field begins with a space. -/
def spaceHead : Bytes := [0x02, 0x20, 0x30, 0x35, 0x34, 0x20, 0x20, 0x20, 0x20, 0x03, 0x31, 0x32, 0x0D, 0x0A]

theorem witness_DecodeShortChecksInOrder :
    (modeEcho.length ≤ (idle .rawMode).params.maxFrameIn ∧ modeEcho.length ≤ 255) ∧
    ((modeEcho.take 13).length ≠ 14 ∧ (modeEcho ++ [0x0A]).length ≠ 14) ∧
    ((modeEcho.set 9 0x04).length = 14 ∧ holdWait.params.checkFraming = true ∧
      framedAt (modeEcho.set 9 0x04) 9 12 = false) ∧
    ((modeEcho.set 10 0x78).length = 14 ∧ (idle .rawMode).params.checkFraming = false ∧
      ¬ checkedAt (modeEcho.set 10 0x78) 9) ∧
    ((modeEcho.set 11 0x33).length = 14 ∧ framedAt (modeEcho.set 11 0x33) 9 12 = true ∧
      ¬ checkedAt (modeEcho.set 11 0x33) 9) ∧
    (spaceHead.length = 14 ∧ framedAt spaceHead 9 12 = true ∧ checkedAt spaceHead 9 ∧
      digit? (spaceHead.getD 1 0) = none) ∧
    (modeEcho.length = 14 ∧ framedAt modeEcho 9 12 = true ∧ checkedAt modeEcho 9 ∧
      digit? (modeEcho.getD 1 0) = some 0 ∧ digit? (modeEcho.getD 2 0) = some 0) := by decide

theorem witness_DecodeLongChecksInOrder :
    (readReply.length ≤ (idle .rawMode).params.maxFrameIn ∧ readReply.length ≤ 255) ∧
    ((readReply.take 31).length ≠ 32 ∧ (readReply ++ [0x0A]).length ≠ 32) ∧
    ((readReply.set 27 0x20).length = 32 ∧ holdWait.params.checkFraming = true ∧
      framedAt (readReply.set 27 0x20) 27 30 = false) ∧
    ((readReply.set 28 0x78).length = 32 ∧ framedAt (readReply.set 28 0x78) 27 30 = true ∧
      ¬ checkedAt (readReply.set 28 0x78) 27) ∧
    (((readReply.set 1 0x20).set 28 0x31).length = 32 ∧
      framedAt ((readReply.set 1 0x20).set 28 0x31) 27 30 = true ∧
      checkedAt ((readReply.set 1 0x20).set 28 0x31) 27 ∧
      digit? (((readReply.set 1 0x20).set 28 0x31).getD 1 0) = none) ∧
    (readReply.length = 32 ∧ framedAt readReply 27 30 = true ∧ checkedAt readReply 27 ∧
      digit? (readReply.getD 1 0) = some 0 ∧ digit? (readReply.getD 2 0) = some 1 ∧
      [slice readReply 9 14, slice readReply 15 20, slice readReply 21 26].map decodeMeasurement =
        [.ok (.present false 1234 (-2)), .ok .absent, .ok .absent]) ∧
    (let f := longFrame "   0" " 12A42" "77"
     f.length = 32 ∧ framedAt f 27 30 = true ∧ checkedAt f 27 ∧
      digit? (f.getD 1 0) = some 0 ∧ digit? (f.getD 2 0) = some 1 ∧
      decodeMeasurement (slice f 9 14) = .error (.format .nonDigitMeasurement)) := by decide

theorem witness_SingleByteChangesAreDetected :
    (modeEcho[1]? ≠ some 0x31 ∧ decodeShort p0 modeEcho = .ok ⟨0, text "54", text "    "⟩) ∧
    (modeEcho[9]? ≠ some 0x04 ∧ decodeShort p1 modeEcho = .ok ⟨0, text "54", text "    "⟩) ∧
    (readReply[1]? ≠ some 0x31 ∧ decodeLong p0 readReply =
      .ok ⟨1, text "10", text "   0", .present false 1234 (-2), .absent, .absent⟩) ∧
    (readReply[27]? ≠ some 0x20 ∧ decodeLong p1 readReply =
      .ok ⟨1, text "10", text "   0", .present false 1234 (-2), .absent, .absent⟩) := by decide

theorem witness_CorruptedBccFieldIsDetected :
    decodeShort p0 modeEcho = .ok ⟨0, text "54", text "    "⟩ ∧
    decodeLong p0 readReply =
      .ok ⟨1, text "10", text "   0", .present false 1234 (-2), .absent, .absent⟩ := by decide

theorem witness_ClassifyStatusFollowsTheTables :
    ((text " 2 0").length ≤ 255) ∧ ((text "   ").length ≠ 4 ∧ (text "X 5Y1").length ≠ 4) ∧
    (((0x33 : Byte), StatusError.eepromFault .two) ∈ [((0x33 : Byte), StatusError.eepromFault .two)] ∧
      ((0x33 : Byte), Battery.lowBattery) ∈ [((0x33 : Byte), Battery.lowBattery)]) ∧
    (errorPosition 0x34 = none ∧ batteryPosition 0x20 = none) := by decide

theorem witness_DecodeMeasurementAnswersTheReading :
    (text " 12342").length ≤ 255 ∧ ((text "01234").length ≠ 6 ∧ (text " 123456").length ≠ 6) ∧
    (([0x2D, 0x20, 0x20, 0x20, 0x20, 0x20] : Bytes) ≠ [0x20, 0x20, 0x20, 0x20, 0x20, 0x20] ∧
      ∃ y ∈ ([0x31, 0x32, 0x33, 0x34, 0x3A] : Bytes), y.toNat < 0x30 ∨ 0x39 < y.toNat) ∧
    (∀ y ∈ ([0x30, 0x39, 0x30, 0x39, 0x39] : Bytes), 0x30 ≤ y.toNat ∧ y.toNat ≤ 0x39) := by decide

theorem witness_ReadingsAreExactRationals :
    decodeMeasurement (text "-12342") = .ok (.present true 1234 (-2)) := by decide

theorem witness_RangeLiteralsFollowTheGrammar :
    parseDecimal (text "-1.5") = some ⟨true, 15, 1⟩ ∧ parseDecimal (text ".5") = some ⟨false, 5, 1⟩ ∧
    parseDecimal (text "5.") = some ⟨false, 5, 0⟩ ∧
    text "-1.5" = [0x2D] ++ text "1" ++ [0x2E] ++ text "5" ∧
    (text "AUTO" ≠ [0x61, 0x75, 0x74, 0x6F] ∧ parseDecimal (text "AUTO") = none) := by decide

theorem witness_SelectRangeFollowsTheBands :
    ((text "29.99").length ≤ (idle .rawMode).params.maxRangeLen ∧ (text "29.99").length ≤ 255) ∧
    text "auto" = [0x61, 0x75, 0x74, 0x6F] ∧
    (text "1e2" ≠ [0x61, 0x75, 0x74, 0x6F] ∧ parseDecimal (text "1e2") = none) ∧
    (text "299999" ≠ [0x61, 0x75, 0x74, 0x6F] ∧ parseDecimal (text "299999") = some ⟨false, 299999, 0⟩) := by
  decide

theorem witness_PackReadParamLaysOutFourBytes :
    ((text "auto").length ≤ (idle .rawMode).params.maxRangeLen ∧ (text "auto").length ≤ 255) ∧
    selectRange (idle .rawMode).params (text "auto") = .ok 0x30 ∧
    selectRange (idle .rawMode).params (text "300000") = .error .range ∧
    selectRange (idle .rawMode).params (text "x") = .error (.format .badRangeSyntax) := by decide

theorem witness_PureOperationsWriteOnlyTheirOutcome :
    isPure (.computeBcc []) ∧ isPure (.packReadParam true true []) := by
  constructor <;> (unfold isPure; decide)

/-- P0 with a parameter string that is too short to frame. -/
def pShort : Params := { p0 with paramRemote := [], holdParamOn := [], clearParam := [] }

theorem witness_EnterRemoteSendsTheModeSwitch :
    ((idle .rawMode).phase = .idle ∧ (idle .rawMode).lifecycle = .rawMode) ∧
    encodeShort p0.modeHead p0.cmdMode p0.paramRemote = .ok modeFrame ∧
    encodeShort pShort.modeHead pShort.cmdMode pShort.paramRemote = .error (.format .badParamLength) := by
  decide

theorem witness_EnterRemoteChecksTheEcho :
    (modeWait.phase = .awaitRecv .short ∧
      modeWait.cur = some (context .enterRemote 0 p0.cmdMode (some .mode)) ∧
      (answering [] [.bytes modeEcho] modeWait).recvAnswers = .bytes modeEcho :: [] ∧
      p0.modeHead = 0 ∧ (context .enterRemote 0 p0.cmdMode (some .mode)).owe = some .mode) ∧
    ((modeEcho.set 11 0x33).length = 14 ∧ decodeShort p0 (modeEcho.set 11 0x33) = .error .checksum) ∧
    decodeShort p0 ((modeEcho.set 2 0x31).set 11 0x33) = .ok ⟨1, text "54", text "    "⟩ ∧
    decodeShort p0 ((modeEcho.set 3 0x34).set 11 0x33) = .ok ⟨0, text "44", text "    "⟩ ∧
    decodeShort p0 modeFrame = .ok ⟨0, text "54", text "1   "⟩ ∧
    decodeShort p0 modeEcho = .ok ⟨0, text "54", text "    "⟩ := by decide

theorem witness_EnterRemoteRunsToRemoteMode :
    let s := answering [.count 14] [.bytes modeEcho] (asked .rawMode [0x10])
    s.resetInput = false ∧ s.phase = .idle ∧ s.settlePending = false ∧ s.lifecycle = .rawMode ∧
    s.hostPort = [0x10] :: [] ∧ s.sendAnswers = .count 14 :: [] ∧ s.recvAnswers = .bytes modeEcho :: [] ∧
    encodeShort s.params.modeHead s.params.cmdMode s.params.paramRemote = .ok modeFrame ∧
    decodeShort s.params modeEcho = .ok ⟨0, text "54", text "    "⟩ ∧
    s.params.modeHead = 0 ∧ s.params.cmdMode = text "54" := by decide

/-- CLEAR_INTEGRATED 1 at its send, the engine of the transport witnesses. -/
def clearSend : State := waiting .remoteMode .awaitSend (context (.clearIntegrated 1) 1 p0.cmdClear none)

theorem witness_TransportFailuresEndTheSession :
    (isDevice (.clearIntegrated 1) = true ∧ clearSend.phase = .awaitSend ∧
      clearSend.cur = some (context (.clearIntegrated 1) 1 p0.cmdClear none)) ∧
    (answering [.error] [] clearSend).sendAnswers = .error :: [] ∧
    ((answering [.count (-1)] [] clearSend).sendAnswers = .count (-1) :: [] ∧ (-1 : Int) < 0) ∧
    ((answering [.count 0, .count 13] [] clearSend).sendAnswers = .count 0 :: [.count 13] ∧
      (0 : Int) ≤ 0 ∧ (13 : Int) < 14) ∧
    ((answering [.count 15] [] clearSend).sendAnswers = .count 15 :: [] ∧ (14 : Int) < 15) ∧
    (replyKindOf readOne = some .long ∧ readWait.phase = .awaitRecv .long ∧
      readWait.cur = some (context readOne 1 p0.cmdRead (some .read))) ∧
    ((answering [] [.error] readWait).recvAnswers = .error :: []) ∧
    ((answering [] [.bytes modeEcho] readWait).recvAnswers = .bytes modeEcho :: [] ∧ modeEcho.length ≠ 32) ∧
    (replyKindOf .enterRemote = some .short ∧ modeWait.phase = .awaitRecv .short ∧
      (modeEcho.take 13).length ≠ 14) := by decide

theorem witness_GoodSendsAskForTheReply :
    let s := answering [.count 14] [] (waiting .remoteMode .awaitSend (context readOne 1 p0.cmdRead none))
    s.phase = .awaitSend ∧ s.cur = some (context readOne 1 p0.cmdRead none) ∧
    s.sendAnswers = .count 14 :: [] := by decide

/-- A context whose operation has failed with ChecksumError. -/
def failed (i : Instr) (head : Byte) (command : Bytes) (kind : SettleKind) : OpContext :=
  { context i head command (some kind) with failure := some ⟨.checksumError, ⟨0, 0, 0, head⟩⟩ }

theorem witness_ElapsedSettleDelivers :
    (settleKindOf readOne = some .read ∧
      (waiting .remoteMode (.awaitSettle .read) (failed readOne 1 p0.cmdRead .read)).phase = .awaitSettle .read ∧
      (failed readOne 1 p0.cmdRead .read).failure = some ⟨.checksumError, ⟨0, 0, 0, 1⟩⟩) ∧
    (settleKindOf .enterRemote = some .mode ∧
      (waiting .remoteMode (.awaitSettle .mode) (context .enterRemote 0 p0.cmdMode (some .mode))).phase =
        .awaitSettle .mode ∧ (context .enterRemote 0 p0.cmdMode (some .mode)).failure = none ∧
      Instr.enterRemote ≠ readOne) ∧
    (settleKindOf (.setHold true) = some .hold ∧
      (waiting .remoteMode (.awaitSettle .hold) (context (.setHold true) 99 p0.cmdHold (some .hold))).phase =
        .awaitSettle .hold ∧ (context (.setHold true) 99 p0.cmdHold (some .hold)).failure = none) := by decide

theorem witness_RangeIsCheckedBeforeAnyFrame :
    (idle .remoteMode).phase = .idle ∧ (idle .remoteMode).lifecycle = .remoteMode ∧
    selectRange (idle .remoteMode).params (text "299999.01") = .error .range := by decide

theorem witness_ConfigureAndReadAddressesTheFirstHead :
    (idle .remoteMode).phase = .idle ∧ (idle .remoteMode).lifecycle = .remoteMode ∧
    selectRange (idle .remoteMode).params (text "auto") = .ok 0x30 ∧
    encodeShort 1 p0.cmdRead [p0.holdFlagOff, p0.ccfFlagOff, 0x30, p0.readPad] = .ok readFrame ∧
    encodeShort 100 p0.cmdRead [p0.holdFlagOff, p0.ccfFlagOff, 0x30, p0.readPad] =
      .error (.format .headOutOfRange) := by decide

theorem witness_ConfigureAndReadJudgesTheReply :
    (readWait.phase = .awaitRecv .long ∧
      readWait.cur = some (context readOne 1 p0.cmdRead (some .read)) ∧
      (answering [] [.bytes readReply] readWait).recvAnswers = .bytes readReply :: [] ∧
      readReply.length = 32 ∧ (context readOne 1 p0.cmdRead (some .read)).owe = some .read) ∧
    decodeLong p0 (longFrame "   0" " 12342" "00") = .error .checksum ∧
    ((longFrame "   x" " 12342" "4d").length = 32 ∧
      decodeLong p0 (longFrame "   x" " 12342" "4d") =
        .ok ⟨1, text "10", text "   x", .present false 1234 (-2), .absent, .absent⟩ ∧
      classifyStatus (text "   x") = .error (.format .unknownStatus)) ∧
    (decodeLong p0 (longFrame " 5 0" " 99995" "13") =
        .ok ⟨1, text "10", text " 5 0", .present false 9999 1, .absent, .absent⟩ ∧
      classifyStatus (text " 5 0") = .ok ⟨.overRange, .nominal⟩) ∧
    (decodeLong p0 readReply = .ok ⟨1, text "10", text "   0", .present false 1234 (-2), .absent, .absent⟩ ∧
      classifyStatus (text "   0") = .ok ⟨.ok, .nominal⟩ ∧ (1 : Byte).toNat = 1 ∧ (2 : Byte).toNat ≠ 1) := by
  decide

theorem witness_FatalStatusEndsTheSession :
    (readWait.phase = .awaitRecv .long ∧
      readWait.cur = some (context readOne 1 p0.cmdRead (some .read))) ∧
    ((answering [] [.bytes (longFrame " 1 0" "      " "02")] readWait).recvAnswers =
        .bytes (longFrame " 1 0" "      " "02") :: [] ∧
      decodeLong p0 (longFrame " 1 0" "      " "02") =
        .ok ⟨1, text "10", text " 1 0", .absent, .absent, .absent⟩ ∧
      batteryPosition ((text " 1 0").getD 3 0) = some .nominal ∧ (text " 1 0")[1]? = some 0x31) ∧
    (decodeLong p0 (longFrame " 2 0" " 12342" "17") =
        .ok ⟨1, text "10", text " 2 0", .present false 1234 (-2), .absent, .absent⟩ ∧
      batteryPosition ((text " 2 0").getD 3 0) = some .nominal ∧ (text " 2 0")[1]? = some 0x32) ∧
    (decodeLong p0 (longFrame " 3 0" " 12342" "16") =
        .ok ⟨1, text "10", text " 3 0", .present false 1234 (-2), .absent, .absent⟩ ∧
      batteryPosition ((text " 3 0").getD 3 0) = some .nominal ∧ (text " 3 0")[1]? = some 0x33) := by decide

theorem witness_ConfigureAndReadServesTheNextHead :
    ((waiting .remoteMode (.awaitSettle .read) (context readOne 1 p0.cmdRead (some .read))).phase =
        .awaitSettle .read ∧ (context readOne 1 p0.cmdRead (some .read)).failure = none) ∧
    ([(1 : Byte)].length ≤ (context readOne 1 p0.cmdRead (some .read)).index + 1) ∧
    ([(2 : Byte), 1][(context readOne 1 p0.cmdRead (some .read)).index + 1]? = some 1 ∧
      encodeShort 1 p0.cmdRead [p0.holdFlagOff, p0.ccfFlagOff, 0x30, p0.readPad] = .ok readFrame) ∧
    ([(2 : Byte), 100][(context readOne 1 p0.cmdRead (some .read)).index + 1]? = some 100 ∧
      99 < (100 : Byte).toNat) := by decide

/-- The exchange of R139's example. -/
def goodExchange : Exchange :=
  ⟨1, readFrame, readReply, ⟨0, 1, .ok, .nominal, .present false 1234 (-2), .absent, .absent⟩⟩

theorem witness_exchangeIsGood :
    goodExchange.good p0 [p0.holdFlagOff, p0.ccfFlagOff, 0x30, p0.readPad] 0 :=
  ⟨by decide, ⟨1, text "10", text "   0", .present false 1234 (-2), .absent, .absent⟩, ⟨.ok, .nominal⟩,
    by decide, by decide, rfl, rfl, rfl, .inl ⟨rfl, rfl⟩, rfl, rfl, rfl, rfl⟩

theorem witness_ConfigureAndReadServesEveryHead :
    let s := answering [.count 14] [.bytes readReply] (asked .remoteMode (encode readOne))
    (s.resetInput = false ∧ s.phase = .idle ∧ s.settlePending = false ∧ s.lifecycle = .remoteMode ∧
      s.hostPort = encode readOne :: [] ∧
      decodeRequest s.params (encode readOne) =
        .ok (.configureAndRead ([goodExchange].map (·.head)) false false (text "auto")) ∧
      selectRange s.params (text "auto") = .ok 0x30 ∧
      s.sendAnswers = List.replicate [goodExchange].length (.count 14) ++ [] ∧
      s.recvAnswers = [goodExchange].map (fun x => .bytes x.reply) ++ []) ∧
    (∀ (k : Nat) (x : Exchange), [goodExchange][k]? = some x → x.good s.params
      [p0.holdFlagOff, p0.ccfFlagOff, 0x30, p0.readPad] k) := by
  refine ⟨by decide, fun k x h => ?_⟩
  match k, h with
  | 0, h => injection h with h; subst h; exact witness_exchangeIsGood
  | _ + 1, h => cases h

theorem witness_SetHoldSetsTheFlag :
    ((idle .remoteMode).phase = .idle ∧ (idle .remoteMode).lifecycle = .remoteMode ∧
      encodeShort p0.holdHead p0.cmdHold p0.holdParamOn =
        .ok [0x02, 0x39, 0x39, 0x35, 0x35, 0x31, 0x20, 0x20, 0x20, 0x03, 0x31, 0x32, 0x0D, 0x0A]) ∧
    encodeShort pShort.holdHead pShort.cmdHold pShort.holdParamOn = .error (.format .badParamLength) ∧
    ((answering [.count 14] []
        (waiting .remoteMode .awaitSend (context (.setHold true) 99 p0.cmdHold none))).sendAnswers =
        .count 14 :: [] ∧ p0.holdExpectsReply = false ∧ p1.holdExpectsReply = true) ∧
    (holdWait.phase = .awaitRecv .short ∧
      holdWait.cur = some (context (.setHold true) 99 p0.cmdHold (some .hold)) ∧
      (context (.setHold true) 99 p0.cmdHold (some .hold)).owe = some .hold ∧
      decodeShort holdWait.params modeEcho = .ok ⟨0, text "54", text "    "⟩ ∧
      (modeEcho.set 11 0x33).length = 14 ∧
      decodeShort holdWait.params (modeEcho.set 11 0x33) = .error .checksum) := by decide

theorem witness_ClearIntegratedEndsWithItsSend :
    ((idle .remoteMode).phase = .idle ∧ (idle .remoteMode).lifecycle = .remoteMode ∧
      encodeShort 1 p0.cmdClear p0.clearParam =
        .ok [0x02, 0x30, 0x31, 0x32, 0x38, 0x20, 0x20, 0x20, 0x20, 0x03, 0x30, 0x38, 0x0D, 0x0A]) ∧
    (p0.clearParam.length = 4 ∧ 99 < (100 : Byte).toNat) ∧
    encodeShort 1 p0.cmdClear pShort.clearParam = .error (.format .badParamLength) ∧
    (clearSend.phase = .awaitSend ∧ (answering [.count 14] [] clearSend).sendAnswers = .count 14 :: []) := by
  decide

theorem witness_TypedParametersAlwaysFrame :
    p0.wellTyped = true ∧ packReadParam p0 true true (text "150") = .ok (text "1320") ∧
    (99 : Byte).toNat ≤ 99 ∧ 99 < (100 : Byte).toNat := by decide

theorem witness_ErrorEntryFollowsItsSteps :
    (readWait.cur = some (context readOne 1 p0.cmdRead (some .read)) ∧
      (context readOne 1 p0.cmdRead (some .read)).owe = some .read ∧
      Raised.checksum ≠ .powerHeadOff ∧ ErrorKind.checksumError.fatal = false) ∧
    ((idle .rawMode).cur = none ∧ ErrorKind.illegalState.fatal = false) := by decide

theorem witness_StepRunsTheDecodedRequest :
    let s := asked .rawMode [0x10]
    s.resetInput = false ∧ s.phase = .idle ∧ s.hostPort = [0x10] :: [] ∧
    decodeRequest s.params [0x10] = .ok .enterRemote ∧ Instr.enterRemote.wellFormed s.params = true := by decide

theorem witness_StepResumesTheOperation :
    modeWait.resetInput = false ∧ modeWait.phase ≠ .idle ∧
    modeWait.cur = some (context .enterRemote 0 p0.cmdMode (some .mode)) ∧ isDevice .enterRemote = true := by
  decide

theorem witness_ReservedOpcodesAreIllegal :
    [0x00, 0x04, 0x0F, 0x14, 0x1F, 0x28, 0xFF].all (fun b : Byte =>
      decide ((asked .rawMode [b]).resetInput = false ∧ (asked .rawMode [b]).phase = .idle ∧
        (asked .rawMode [b]).hostPort = [b] :: [] ∧
        (b.toNat = 0x00 ∨ (0x04 ≤ b.toNat ∧ b.toNat ≤ 0x0F) ∨ (0x14 ≤ b.toNat ∧ b.toNat ≤ 0x1F) ∨
          0x28 ≤ b.toNat))) = true := by decide

theorem witness_MalformedRequestsAreTurnedAway :
    let s := asked .disconnected [0x12, 0x02]
    s.resetInput = false ∧ s.phase = .idle ∧ s.hostPort = [0x12, 0x02] :: [] ∧
    decodeRequest s.params [0x12, 0x02] = .error (.format .badOperand) := by decide

theorem witness_RequestFormatIsChecked :
    (readOne.wellFormed p0 = true ∧ 1 ≤ 9 ∧ 9 < (encode readOne).length) ∧
    ((0x02 : Byte) ≠ 0x00 ∧ (0x02 : Byte) ≠ 0x01) ∧
    (fits p0.maxHeads (spaces 30) = true ∧ fits p0.maxRangeLen (spaces 16) = true) ∧
    (p0.maxHeads < (spaces 31).length ∧ (spaces 31).length ≤ 255 ∧
      fits p0.maxRangeLen (text "auto") = true) ∧
    (p0.maxRangeLen < (spaces 17).length ∧ (spaces 17).length ≤ 255) ∧
    (let p := { p0 with maxBccSpan := 32, maxFrameIn := 32 }
     p.maxBccSpan < (spaces 33).length ∧ p.maxFrameIn < (spaces 33).length ∧
      (spaces 33).length ≤ 255) := by decide

theorem witness_SampleRequestsDecode : 1 ≤ p0.maxHeads ∧ 8 ≤ p0.maxRangeLen ∧ 27 ≤ p0.maxBccSpan := by decide

theorem witness_DecodeOfEncodeIsTheOperation :
    readOne.wellFormed p0 = true ∧
    (Instr.configureAndRead (spaces 30) true true (spaces 16)).wellFormed p0 = true := by decide

theorem witness_DecodedRequestIsTheEncoding : decodeRequest p0 [0x12, 0x00] = .ok (.setHold false) := by decide

theorem witness_WaitsWithoutAnAnswerChangeNothing :
    ((idle .rawMode).resetInput = false ∧ (idle .rawMode).phase = .idle ∧ (idle .rawMode).hostPort = []) ∧
    (clearSend.resetInput = false ∧ clearSend.phase = .awaitSend ∧
      clearSend.cur = some (context (.clearIntegrated 1) 1 p0.cmdClear none) ∧
      isDevice (.clearIntegrated 1) = true ∧ clearSend.sendAnswers = []) ∧
    (readWait.resetInput = false ∧ readWait.phase = .awaitRecv .long ∧
      readWait.cur = some (context readOne 1 p0.cmdRead (some .read)) ∧
      replyKindOf readOne = some .long ∧ readWait.recvAnswers = []) := by decide

theorem witness_ResetIsTakenInAnyPhase : readWait.pullReset.resetInput = true := by decide

theorem witness_BusyEngineLeavesRequestsWaiting :
    readWait.resetInput = false ∧ readWait.phase ≠ .idle := by decide

/-- The state after one step; `s` itself where there is none. -/
def after (s : State) : State := (nextOf (step s)).getD s

theorem witness_OnlyFourRulesWriteLifecycle :
    [asked .disconnected [0x01], asked .remoteMode [0x02], answering [] [.bytes modeEcho] modeWait,
      answering [.error] [] clearSend].all (fun s => decide (s.resetInput = false ∧
        nextOf (step s) = some (after s) ∧ (after s).lifecycle ≠ s.lifecycle)) = true := by decide

theorem witness_OnlySetHoldAndDisconnectWriteHeld :
    [answering [] [.bytes modeEcho] holdWait,
      { asked .remoteMode [0x02] with held := .running }].all (fun s => decide (
        nextOf (step s) = some (after s) ∧ (after s).held ≠ s.held)) = true ∧
    (after (asked .remoteMode [0x02])).lifecycle = .disconnected := by decide

theorem witness_StepsMoveWholeFrames :
    [asked .rawMode [0x10], answering [] [.bytes readReply] readWait].all (fun s => decide (
      s.resetInput = false ∧ nextOf (step s) = some (after s))) = true := by decide

theorem witness_NothingIsSentWhileSettling :
    (answering [] [.bytes modeEcho] modeWait).sessionInv ∧
    nextOf (step (answering [] [.bytes modeEcho] modeWait)) =
      some (after (answering [] [.bytes modeEcho] modeWait)) ∧
    (after (answering [] [.bytes modeEcho] modeWait)).settlePending = true := by decide

theorem witness_RecordsStandOnceEmitted :
    (answering [] [.bytes readReply] readWait).resetInput = false ∧
    nextOf (step (answering [] [.bytes readReply] readWait)) =
      some (after (answering [] [.bytes readReply] readWait)) ∧
    (answering [] [.bytes readReply] readWait).phase ≠ .idle := by decide

theorem witness_StepsKeepTheParameters :
    nextOf (step (asked .rawMode [0x10])) = some (after (asked .rawMode [0x10])) := by decide

theorem witness_StepsKeepTheSessionInvariant :
    modeWait.sessionInv ∧ (asked .rawMode [0x10]).sessionInv ∧
    nextOf (step (asked .rawMode [0x10])) = some (after (asked .rawMode [0x10])) := by decide

theorem witness_ConsistentEnginesNeverStop : readWait.consistent ∧ (idle .rawMode).consistent :=
  ⟨⟨by decide, by intro c h; cases h; rfl⟩, ⟨by decide, by intro c h; cases h⟩⟩

theorem witness_StepsKeepTheBuffersWhole :
    (idle .rawMode).buffersWhole ∧
    nextOf (step (asked .rawMode [0x10])) = some (after (asked .rawMode [0x10])) :=
  ⟨⟨(by intro f h; cases h), (by intro f h; cases h)⟩, by decide⟩

theorem witness_PseudoOperationsExpandAndStopAtErr :
    (nextOf (runOperation 1 ((idle .rawMode).issue (encode .attach)))).map (·.outcome) =
      some (some (.err .illegalState ⟨0, 0, 0, 0xFF⟩)) ∧
    (nextOf (runOperation 1 ((idle .disconnected).issue (encode .attach)))).map (·.outcome) =
      some (some (.ok .none)) := by decide

end Sys2Proof.Tests
end

section
/-! SUPPORT. What the request decoder answers: its errors, and the two requests that open and end a
session (30_encoding.md R74 to R78). -/

namespace Sys2Proof

/-- No reason is reported exactly where none applies (R74). -/
theorem reportedReason_eq_none {request : Bytes} {reasons : List FormatReason} :
    reportedReason request reasons = none ↔ reasons = [] := by
  cases reasons with
  | nil => simp [reportedReason]
  | cons r rs => simp only [reportedReason]; split <;> simp

/-- An operation is built from its own opcode and its own operands only (R76). -/
theorem buildInstr_eq_some {opcode : Byte} {vals : List Operand} {i : Instr}
    (h : buildInstr opcode vals = some i) : opcode = i.opcode ∧ vals = i.operands := by
  have opcode_eq : ∀ {b : Byte}, opcode.toNat = b.toNat → opcode = b := BitVec.eq_of_toNat_eq
  unfold buildInstr at h
  split at h <;> cases h <;> exact ⟨opcode_eq ‹_›, rfl⟩

/-- What a request that decodes is made of: an opcode with a row in R76 and operands of that row with
no format defect. -/
theorem decodeRequest_eq_ok {p : Params} {request : Bytes} {i : Instr}
    (h : decodeRequest p request = .ok i) :
    ∃ rest fmt, request = i.opcode :: rest ∧ operandFormat p i.opcode = some fmt ∧
      parseOperands fmt rest = (i.operands, []) := by
  unfold decodeRequest at h
  split at h
  · cases h
  · rename_i opcode rest
    split at h
    · cases h
    · rename_i fmt hfmt
      dsimp only at h
      split at h
      · cases h
      · rename_i hreasons
        split at h
        · rename_i hbuild
          cases h
          obtain ⟨rfl, hvals⟩ := buildInstr_eq_some hbuild
          exact ⟨rest, fmt, rfl, hfmt, Prod.ext hvals (reportedReason_eq_none.mp hreasons)⟩
        · cases h

/-- A request that does not decode is IllegalOp or a FormatError (R182). -/
theorem decodeRequest_eq_error {p : Params} {request : Bytes} {e : Raised}
    (h : decodeRequest p request = .error e) : e = .illegalOp ∨ ∃ r, e = .format r := by
  unfold decodeRequest at h
  split at h
  · cases h; exact .inr ⟨_, rfl⟩
  · split at h
    · cases h; exact .inl rfl
    · dsimp only at h
      split at h
      · cases h; exact .inr ⟨_, rfl⟩
      · split at h
        · cases h
        · cases h; exact .inl rfl

/-- A row without operands takes no operand bytes (R74). -/
theorem parseOperands_nil {rest : Bytes} {vals : List Operand}
    (h : parseOperands [] rest = (vals, [])) : rest = [] := by
  cases rest with
  | nil => rfl
  | cons b bs => simp [parseOperands] at h

/-- The one request of an operation without operands is its opcode byte (R76). -/
theorem request_eq_encode_of_no_operands {p : Params} {request : Bytes} {i : Instr}
    (row : operandFormat p i.opcode = some []) (h : decodeRequest p request = .ok i) :
    request = encode i := by
  obtain ⟨rest, fmt, rfl, hfmt, hparse⟩ := decodeRequest_eq_ok h
  obtain rfl : [] = fmt := Option.some.inj (row.symm.trans hfmt)
  obtain rfl := parseOperands_nil hparse
  have : i.operands = [] := congrArg Prod.fst hparse.symm
  simp [encode, this]

end Sys2Proof
end

section
/-! SUPPORT. `Move`: the moves of one step, each once by name. `step_move` ties it to `step`: every step is
a move. The frame rules and invariants of 10_state.md are case splits over it. A move keeps only those
conditions of its step that these rules ask for, so not every move is a step. -/

namespace Sys2Proof.Machine

/-- A request turned away is answered at once: no error of the request format is fatal (R180, R182). -/
theorem State.rejectRequest_eq_answered {p : Params} {request : Bytes} {e : Raised}
    (h : decodeRequest p request = .error e) (s : State) :
    s.rejectRequest e = s.answered (.err e.kind (e.info 0 noHead)) := by
  have plain : e.kind.fatal = false := by
    rcases decodeRequest_eq_error h with rfl | ⟨r, rfl⟩ <;> rfl
  exact State.raise_plain plain 0 noHead (s := s.accept) (by rintro _ ⟨⟩)

/-- `s` with answers of the transport used up and RXBUF holding `buf` (R131, R132). -/
def State.answersTaken (sends : List SendAnswer) (recvs : List RecvAnswer) (buf : Option Bytes)
    (s : State) : State :=
  { s with sendAnswers := sends, recvAnswers := recvs, rxBuf := buf }

/-- The operation `c` waits for the transport, and `buf` is what its answer leaves in RXBUF: what was
there, or a whole reply (R131, R132). -/
structure Exchanging (s : State) (c : OpContext) (buf : Option Bytes) : Prop where
  busy : s.phase ≠ .idle
  unsettled : s.phase.settling = false
  cur : s.cur = some c
  whole : buf = s.rxBuf ∨ ∃ (b : Bytes) (n : ReplyKind), buf = some b ∧ b.length = n.length

/-- Every move of one step from `s`. -/
inductive Move (s : State) : State → Prop
  /-- The reset input is taken (R201). -/
  | reset (input : s.resetInput = true) : Move s s.applyReset
  /-- Nothing has come that the engine waits for (R54, R206). -/
  | wait : Move s s
  /-- A request is answered in the step that accepts it (R26, R180). -/
  | answer (o : OpOutcome) (rest : List Bytes) (idle : s.phase = .idle) :
      Move s (({ s with hostPort := rest } : State).answered o)
  /-- ATTACH opens the session (R134). -/
  | attach (rest : List Bytes) (idle : s.phase = .idle) (port : s.hostPort = encode .attach :: rest)
      (out : s.lifecycle = .disconnected) :
      Move s { ({ s with hostPort := rest } : State).answered (.ok .none) with lifecycle := .rawMode }
  /-- DETACH ends it (R135). -/
  | detach (rest : List Bytes) (idle : s.phase = .idle)
      (port : s.hostPort = encode .detach :: rest) :
      Move s (({ s with hostPort := rest } : State).answered (.ok .none)).sessionLost
  /-- A device operation sends its first frame (R21, R131). -/
  | start (c : OpContext) (f : Bytes) (rest : List Bytes) (idle : s.phase = .idle)
      (session : s.inSession) (device : isDevice c.request = true) (owe : c.owe = none)
      (frame : f.length = 14) :
      Move s (({ s with hostPort := rest } : State).started c f)
  /-- A fatal error ends the session (R180 step 2). -/
  | lose (c : OpContext) (e : Raised) (sends : List SendAnswer) (recvs : List RecvAnswer)
      (buf : Option Bytes) (exchanging : Exchanging s c buf) (fatal : e.kind.fatal = true) :
      Move s ((s.answersTaken sends recvs buf).disconnect.deliver
        (.err e.kind (e.info c.index c.sentHead)))
  /-- Another error waits for the settle owed (R180 step 3). -/
  | defer (c : OpContext) (e : Raised) (kind : SettleKind) (sends : List SendAnswer)
      (recvs : List RecvAnswer) (buf : Option Bytes) (exchanging : Exchanging s c buf)
      (owe : c.owe = some kind) :
      Move s ((s.answersTaken sends recvs buf).settlingFor kind c e)
  /-- Another error is delivered where no settle is owed (R180 step 4). -/
  | fail (c : OpContext) (e : Raised) (sends : List SendAnswer) (recvs : List RecvAnswer)
      (buf : Option Bytes) (exchanging : Exchanging s c buf) :
      Move s ((s.answersTaken sends recvs buf).ended (.err e.kind (e.info c.index c.sentHead)))
  /-- A whole send, and the operation waits for its reply (R132, R133). -/
  | sent (c : OpContext) (n : ReplyKind) (kind : SettleKind) (rest : List SendAnswer)
      (sending : s.phase = .awaitSend) (cur : s.cur = some c)
      (reply : replyKindOf c.request = some n) (settles : settleKindOf c.request = some kind) :
      Move s { s.sendTaken rest with
        cur := some { c with owe := some kind }, phase := .awaitRecv n }
  /-- A whole send of SET_HOLD that expects no reply (R142). -/
  | hold (c : OpContext) (flag : Bool) (rest : List SendAnswer) (sending : s.phase = .awaitSend)
      (cur : s.cur = some c) (request : c.request = .setHold flag)
      (answers : s.sendAnswers = .count 14 :: rest) (silent : s.params.holdExpectsReply = false) :
      Move s { s.sendTaken rest with
        held := heldOf flag, cur := some { c with owe := some .hold }, settlePending := true,
        phase := .awaitSettle .hold }
  /-- A whole send of CLEAR_INTEGRATED ends it (R143). -/
  | cleared (rest : List SendAnswer) (sending : s.phase = .awaitSend) :
      Move s ((s.sendTaken rest).ended (.ok .none))
  /-- The right echo of ENTER_REMOTE (R137, R138). -/
  | remote (c : OpContext) (b : Bytes) (r : ShortFields) (rest : List RecvAnswer)
      (receiving : s.phase = .awaitRecv .short) (cur : s.cur = some c)
      (request : c.request = .enterRemote) (answers : s.recvAnswers = .bytes b :: rest)
      (whole : b.length = 14) (decoded : decodeShort s.params b = .ok r)
      (echo : echoMismatch c r = none) :
      Move s { s.replyTaken b rest with
        lifecycle := .remoteMode, settlePending := true, phase := .awaitSettle .mode }
  /-- A good reply of CONFIGURE_AND_READ yields a record (R140). -/
  | emit (c : OpContext) (b : Bytes) (r : HeadResult) (rest : List RecvAnswer)
      (receiving : s.phase = .awaitRecv .long) (cur : s.cur = some c)
      (settles : settleKindOf c.request = some .read) (whole : b.length = 32) :
      Move s { s.replyTaken b rest with
        results := s.results ++ [r], settlePending := true, phase := .awaitSettle .read }
  /-- A reply of SET_HOLD that decodes (R142). -/
  | holdReply (c : OpContext) (flag : Bool) (b : Bytes) (r : ShortFields) (rest : List RecvAnswer)
      (receiving : s.phase = .awaitRecv .short) (cur : s.cur = some c)
      (request : c.request = .setHold flag) (answers : s.recvAnswers = .bytes b :: rest)
      (whole : b.length = 14) (decoded : decodeShort s.params b = .ok r) :
      Move s { s.replyTaken b rest with
        held := heldOf flag, settlePending := true, phase := .awaitSettle .hold }
  /-- A settle elapses and the operation ends (R133, R180 step 4). -/
  | elapse (o : OpOutcome) (settling : s.phase.settling = true) :
      Move s (({ s with settlePending := false } : State).ended o)
  /-- A settle of CONFIGURE_AND_READ elapses and the next frame is sent (R139). -/
  | serve (c : OpContext) (f : Bytes) (settling : s.phase.settling = true)
      (device : isDevice c.request = true) (owe : c.owe = none) (frame : f.length = 14) :
      Move s { s with
        settlePending := false, cur := some c, txBuf := some f, phase := .awaitSend,
        txStream := s.txStream ++ f }

/-- Error entry in a wait for the transport is a move. -/
theorem Exchanging.raise {s : State} {c : OpContext} {buf : Option Bytes}
    (exchanging : Exchanging s c buf) (e : Raised) (sends : List SendAnswer) (recvs : List RecvAnswer) :
    Move s ((s.answersTaken sends recvs buf).raise e c.index c.sentHead) := by
  rcases (s.answersTaken sends recvs buf).raise_cases e c.index c.sentHead with
    ⟨fatal, h⟩ | ⟨-, c', kind, cur, owe, h⟩ | ⟨-, -, h⟩
  · rw [h]; exact .lose c e sends recvs buf exchanging fatal
  · obtain rfl : c = c' := Option.some.inj (exchanging.cur.symm.trans cur)
    rw [h]; exact .defer c e kind sends recvs buf exchanging owe
  · rw [h]; exact .fail c e sends recvs buf exchanging

/-- What a decoded request does at an idle engine is a move. -/
theorem exec_idle_move {i : Instr} {s t : State} {q : Bytes} {rest : List Bytes}
    (idle : s.phase = .idle) (port : s.hostPort = q :: rest)
    (decoded : decodeRequest s.params q = .ok i)
    (h : exec i { s with hostPort := rest } = .next t) : Move s t := by
  rcases exec_idle (s := { s with hostPort := rest }) idle h with
    ⟨o, rfl⟩ | ⟨rfl, out, rfl⟩ | ⟨rfl, rfl⟩ | ⟨device, session, c, f, rfl, owe, -, frame, rfl⟩
  · exact .answer o rest idle
  · exact .attach rest idle (request_eq_encode_of_no_operands rfl decoded ▸ port) out
  · exact .detach rest idle (request_eq_encode_of_no_operands rfl decoded ▸ port)
  · exact .start c f rest idle session device owe frame

/-- What a device operation does after a whole send is a move. -/
theorem afterSend_move {s t : State} {c : OpContext} {rest : List SendAnswer}
    (sending : s.phase = .awaitSend) (cur : s.cur = some c)
    (answers : s.sendAnswers = .count 14 :: rest)
    (h : afterSend c.request c (s.sendTaken rest) t) : Move s t := by
  rcases h with ⟨n, kind, reply, settles, rfl⟩ | ⟨flag, request, silent, rfl⟩ | ⟨head, -, rfl⟩
  · exact .sent c n kind rest sending cur reply settles
  · exact .hold c flag rest sending cur request answers silent
  · exact .cleared rest sending

/-- What a device operation does with a whole reply is a move. -/
theorem afterReply_move {s t : State} {c : OpContext} {n : ReplyKind} {b : Bytes}
    {rest : List RecvAnswer} (receiving : s.phase = .awaitRecv n) (cur : s.cur = some c)
    (reply : replyKindOf c.request = some n) (answers : s.recvAnswers = .bytes b :: rest)
    (whole : b.length = n.length)
    (h : afterReply c.request c b (s.replyTaken b rest) t) : Move s t := by
  rcases h with ⟨e, rfl⟩ | ⟨request, ⟨r, decoded, echo⟩, rfl⟩ |
    ⟨heads, hold, ccf, range, r, request, -, rfl⟩ | ⟨flag, request, ⟨r, decoded⟩, rfl⟩
  · have exchanging : Exchanging s c (some b) :=
      ⟨by simp [receiving], by simp [receiving, Phase.settling], cur, .inr ⟨b, n, rfl, whole⟩⟩
    exact exchanging.raise e s.sendAnswers rest
  · obtain rfl : ReplyKind.short = n := by simpa [request, replyKindOf] using reply
    exact .remote c b r rest receiving cur request answers whole decoded echo
  · obtain rfl : ReplyKind.long = n := by simpa [request, replyKindOf] using reply
    exact .emit c b r rest receiving cur (by rw [request]; rfl) whole
  · obtain rfl : ReplyKind.short = n := by simpa [request, replyKindOf] using reply
    exact .holdReply c flag b r rest receiving cur request answers whole decoded

/-- What a device operation does in a wait is a move. -/
theorem exec_busy_move {s t : State} {c : OpContext} (device : isDevice c.request = true)
    (busy : s.phase ≠ .idle) (cur : s.cur = some c) (h : exec c.request s = .next t) :
    Move s t := by
  rcases exec_busy device busy cur h with
    ⟨sending, ⟨-, rfl⟩ | ⟨a, rest, answers, ⟨reason, -, rfl⟩ | ⟨rfl, h⟩⟩⟩ |
    ⟨n, receiving, reply, ⟨-, rfl⟩ | ⟨a, rest, answers, ⟨-, rfl⟩ | ⟨b, rfl, whole, h⟩⟩⟩ |
    ⟨kind, settling, settles, ⟨g, -, rfl⟩ | ⟨-, h⟩⟩
  · exact .wait
  · have exchanging : Exchanging s c s.rxBuf :=
      ⟨busy, by simp [sending, Phase.settling], cur, .inl rfl⟩
    exact exchanging.raise (.transport reason) rest s.recvAnswers
  · exact afterSend_move sending cur answers h
  · exact .wait
  · have exchanging : Exchanging s c s.rxBuf :=
      ⟨busy, by simp [receiving, Phase.settling], cur, .inl rfl⟩
    exact exchanging.raise (.transport .receiveFailed) s.sendAnswers rest
  · exact afterReply_move receiving cur reply answers whole h
  · exact .elapse _ (by rw [settling]; rfl)
  · have settled : s.phase.settling = true := by rw [settling]; rfl
    rcases h with rfl | ⟨e, index, head, -, rfl⟩ |
      ⟨heads, hold, ccf, range, c', f, request, hc', frame, rfl⟩
    · exact .elapse _ settled
    · exact .elapse _ settled
    · exact .serve c' f settled (by rw [hc']; exact device) (by rw [hc']; rfl) frame

/-- Every step that answers a next state is a move. -/
theorem step_move {s t : State} (h : step s = .next t) : Move s t := by
  rcases step_next h with ⟨input, rfl⟩ | ⟨-, -, -, rfl⟩ |
    ⟨-, idle, q, rest, port, ⟨e, decoded, rfl⟩ | ⟨i, decoded, h⟩⟩ | ⟨-, busy, c, cur, device, h⟩
  · exact .reset input
  · exact .wait
  · rw [State.rejectRequest_eq_answered decoded]; exact .answer _ rest idle
  · exact exec_idle_move idle port decoded h
  · exact exec_busy_move device busy cur h

end Sys2Proof.Machine
end

section
/-! SUPPORT. What every move keeps of the session and of the operation in progress (10_state.md R33). -/

namespace Sys2Proof.Machine

/-- An idle engine has R33's invariants with no settle pending and Disconnected clean. -/
theorem sessionInv_of_idle {t : State} (idle : t.phase = .idle) (cur : t.cur = none)
    (settled : t.settlePending = false)
    (out : t.lifecycle = .disconnected → t.held = .unknown) : t.sessionInv :=
  ⟨iff_of_true idle cur, fun h => ⟨out h, settled⟩, by simp [settled], fun h => absurd idle h⟩

/-- A waiting engine has them with an operation, a session, and a settle pending in a settle only. -/
theorem sessionInv_of_busy {t : State} {c : OpContext} (busy : t.phase ≠ .idle)
    (cur : t.cur = some c) (session : t.inSession)
    (settle : t.settlePending = true → t.phase.settling = true) : t.sessionInv :=
  ⟨iff_of_false busy (by simp [cur]), fun h => absurd h session, settle, fun _ => session⟩

/-- No settle is pending outside AwaitSettle (R33 (I3)). -/
theorem State.sessionInv.settled {s : State} (inv : s.sessionInv) (h : s.phase.settling = false) :
    s.settlePending = false := by
  obtain ⟨-, -, i3, -⟩ := inv
  by_contra hp
  exact absurd (i3 (by simpa using hp)) (by simp [h])

/-- HELD is Unknown where no session is (R33 (I2)). -/
theorem State.sessionInv.held_unknown {s : State} (inv : s.sessionInv)
    (out : s.lifecycle = .disconnected) : s.held = .unknown := by
  obtain ⟨-, i2, -, -⟩ := inv
  exact (i2 out).1

/-- A wait stands in a session (R33 (I4)). -/
theorem State.sessionInv.session {s : State} (inv : s.sessionInv) (busy : s.phase ≠ .idle) :
    s.inSession := by
  obtain ⟨-, -, -, i4⟩ := inv
  exact i4 busy

/-- A settle is a wait. -/
theorem Phase.settling_busy {p : Phase} (h : p.settling = true) : p ≠ .idle := by
  rintro rfl; cases h

/-- Every move keeps R33's invariants. -/
theorem Move.sessionInv {s t : State} (m : Move s t) (inv : s.sessionInv) : t.sessionInv := by
  cases m with
  | reset => exact sessionInv_of_idle rfl rfl rfl fun _ => rfl
  | wait => exact inv
  | answer o rest idle =>
    exact sessionInv_of_idle rfl rfl (inv.settled (by rw [idle]; rfl)) inv.held_unknown
  | attach rest idle =>
    exact sessionInv_of_idle rfl rfl (inv.settled (by rw [idle]; rfl)) (by rintro ⟨⟩)
  | detach => exact sessionInv_of_idle rfl rfl rfl fun _ => rfl
  | start c f rest idle session =>
    refine sessionInv_of_busy (by rintro ⟨⟩) rfl session fun h => ?_
    exact absurd (inv.settled (by rw [idle]; rfl)) (ne_false_of_eq_true h)
  | lose => exact sessionInv_of_idle rfl rfl rfl fun _ => rfl
  | defer c e kind sends recvs buf exchanging =>
    exact sessionInv_of_busy (by rintro ⟨⟩) rfl (inv.session exchanging.busy) fun _ => rfl
  | fail c e sends recvs buf exchanging =>
    exact sessionInv_of_idle rfl rfl (inv.settled exchanging.unsettled) inv.held_unknown
  | sent c n kind rest sending =>
    refine sessionInv_of_busy (by rintro ⟨⟩) rfl (inv.session (by simp [sending])) fun h => ?_
    exact absurd (inv.settled (by rw [sending]; rfl)) (ne_false_of_eq_true h)
  | hold c flag rest sending =>
    exact sessionInv_of_busy (by rintro ⟨⟩) rfl (inv.session (by simp [sending])) fun _ => rfl
  | cleared rest sending =>
    exact sessionInv_of_idle rfl rfl (inv.settled (by rw [sending]; rfl)) inv.held_unknown
  | remote c b r rest receiving cur =>
    exact sessionInv_of_busy (by rintro ⟨⟩) cur (by rintro ⟨⟩) fun _ => rfl
  | emit c b r rest receiving cur =>
    exact sessionInv_of_busy (by rintro ⟨⟩) cur (inv.session (by simp [receiving])) fun _ => rfl
  | holdReply c flag b r rest receiving cur =>
    exact sessionInv_of_busy (by rintro ⟨⟩) cur (inv.session (by simp [receiving])) fun _ => rfl
  | elapse o settling => exact sessionInv_of_idle rfl rfl rfl inv.held_unknown
  | serve c f settling =>
    exact sessionInv_of_busy (by rintro ⟨⟩) rfl (inv.session (Phase.settling_busy settling))
      (by rintro ⟨⟩)

/-- Settles O56: what a step does is one of the moves, and every move keeps (I1) to (I4). -/
theorem stepsKeepTheSessionInvariant : Obligations.StepsKeepTheSessionInvariant :=
  fun _ _ inv h => (step_move h).sessionInv inv

/-! ### CUR fits PHASE -/

/-- What it means that CUR fits PHASE, part by part. -/
theorem OpContext.fits_iff {c : OpContext} {p : Phase} :
    c.fits p = true ↔ isDevice c.request = true ∧ (c.owe = none ∨ c.owe = settleKindOf c.request) ∧
      (∀ n, p = .awaitRecv n → replyKindOf c.request = some n) ∧
      (∀ k, p = .awaitSettle k → settleKindOf c.request = some k) := by
  cases p <;> simp [OpContext.fits, and_assoc]

/-- The operation in CUR still fits after it begins a settle of its kind, whatever error it notes. -/
theorem OpContext.fits.settle {c : OpContext} {p : Phase} (h : c.fits p = true) {k : SettleKind}
    (settles : settleKindOf c.request = some k) (failure : Option Failure) :
    ({ c with failure := failure } : OpContext).fits (.awaitSettle k) = true := by
  obtain ⟨device, owe, -, -⟩ := OpContext.fits_iff.mp h
  exact OpContext.fits_iff.mpr ⟨device, owe, by simp, by simp [settles]⟩

/-- The operation in CUR still fits after it owes a settle of its kind. -/
theorem OpContext.fits.owing {c : OpContext} {p q : Phase} (h : c.fits p = true) {k : SettleKind}
    (settles : settleKindOf c.request = some k)
    (recv : ∀ n, q = .awaitRecv n → replyKindOf c.request = some n)
    (settle : ∀ k', q = .awaitSettle k' → k = k') :
    ({ c with owe := some k } : OpContext).fits q = true := by
  obtain ⟨device, -, -, -⟩ := OpContext.fits_iff.mp h
  exact OpContext.fits_iff.mpr ⟨device, .inr settles.symm, recv, fun k' hq => settle k' hq ▸ settles⟩

/-- A device operation that owes nothing fits AwaitSend. -/
theorem OpContext.fits_awaitSend {c : OpContext} (device : isDevice c.request = true)
    (owe : c.owe = none) : c.fits .awaitSend = true :=
  OpContext.fits_iff.mpr ⟨device, .inl owe, by simp, by simp⟩

/-- Every move leaves CUR fitting PHASE. -/
theorem Move.fits {s t : State} (m : Move s t) (fits : ∀ c ∈ s.cur, c.fits s.phase = true) :
    ∀ c ∈ t.cur, c.fits t.phase = true := by
  cases m with
  | wait => exact fits
  | reset | answer | attach | detach | lose | fail | cleared | elapse => rintro _ ⟨⟩
  | start c f rest idle session device owe => rintro _ ⟨⟩; exact OpContext.fits_awaitSend device owe
  | defer c e kind sends recvs buf exchanging owe =>
    have fit := fits c exchanging.cur
    obtain ⟨-, owed, -, -⟩ := OpContext.fits_iff.mp fit
    rintro _ ⟨⟩
    exact OpContext.fits.settle fit (by simpa [owe, eq_comm] using owed) _
  | sent c n kind rest sending cur reply settles =>
    rintro _ ⟨⟩
    exact OpContext.fits.owing (fits c cur) settles (by simp [reply]) (by simp)
  | hold c flag rest sending cur request =>
    rintro _ ⟨⟩
    exact OpContext.fits.owing (fits c cur) (by rw [request]; rfl) (by simp) (by simp)
  | remote c b r rest receiving cur request =>
    intro c' cur'
    obtain rfl : c = c' := Option.some.inj (cur.symm.trans cur')
    exact OpContext.fits.settle (fits c cur) (by rw [request]; rfl) c.failure
  | emit c b r rest receiving cur settles =>
    intro c' cur'
    obtain rfl : c = c' := Option.some.inj (cur.symm.trans cur')
    exact OpContext.fits.settle (fits c cur) settles c.failure
  | holdReply c flag b r rest receiving cur request =>
    intro c' cur'
    obtain rfl : c = c' := Option.some.inj (cur.symm.trans cur')
    exact OpContext.fits.settle (fits c cur) (by rw [request]; rfl) c.failure
  | serve c f settling device owe => rintro _ ⟨⟩; exact OpContext.fits_awaitSend device owe

/-! ### Progress -/

/-- A wait for a send with an operation in CUR answers a next state. -/
theorem State.onSendAnswer_progress {s : State} {c : OpContext} (cur : s.cur = some c)
    (next : OpContext → State → State) : ∃ t, s.onSendAnswer next = .next t := by
  simp only [State.onSendAnswer, cur]
  cases s.sendAnswers with
  | nil => exact ⟨_, rfl⟩
  | cons a rest => cases h : judgeSend a <;> simp [h]

/-- A wait for a reply with an operation in CUR answers a next state. -/
theorem State.onReceiveAnswer_progress {s : State} {c : OpContext} (cur : s.cur = some c)
    (n : ReplyKind) (next : OpContext → Bytes → State → State) :
    ∃ t, s.onReceiveAnswer n next = .next t := by
  simp only [State.onReceiveAnswer, cur]
  cases s.recvAnswers with
  | nil => exact ⟨_, rfl⟩
  | cons a rest => cases h : judgeReceive n a <;> simp [h]

/-- A settle with an operation in CUR answers a next state. -/
theorem State.onElapsed_progress {s : State} {c : OpContext} (cur : s.cur = some c)
    (next : OpContext → State → State) : ∃ t, s.onElapsed next = .next t := by
  simp only [State.onElapsed, cur]
  cases c.failure <;> exact ⟨_, rfl⟩

/-- Every operation answers a next state at an idle engine. -/
theorem exec_idle_progress (i : Instr) {s : State} (idle : s.phase = .idle) :
    ∃ t, exec i s = .next t := by
  cases i with
  | attach => simp only [exec, execAttach]; split <;> exact ⟨_, rfl⟩
  | enterRemote => simp only [exec, execEnterRemote, idle]; exact ⟨_, rfl⟩
  | configureAndRead => simp only [exec, execConfigureAndRead, idle]; exact ⟨_, rfl⟩
  | setHold => simp only [exec, execSetHold, idle]; exact ⟨_, rfl⟩
  | clearIntegrated => simp only [exec, execClearIntegrated, idle]; exact ⟨_, rfl⟩
  | _ => exact ⟨_, rfl⟩

/-- In AwaitSend every device operation takes the transport's count. -/
theorem exec_awaitSend {i : Instr} {s : State} (device : isDevice i = true)
    (sending : s.phase = .awaitSend) : ∃ next, exec i s = s.onSendAnswer next := by
  cases i with
  | enterRemote => simp only [exec, execEnterRemote, sending]; exact ⟨_, rfl⟩
  | configureAndRead => simp only [exec, execConfigureAndRead, sending]; exact ⟨_, rfl⟩
  | setHold => simp only [exec, execSetHold, sending]; exact ⟨_, rfl⟩
  | clearIntegrated => simp only [exec, execClearIntegrated, sending]; exact ⟨_, rfl⟩
  | _ => cases device

/-- In the AwaitRecv of its own length an operation takes the transport's bytes (R72). -/
theorem exec_awaitRecv {i : Instr} {s : State} {n : ReplyKind} (reply : replyKindOf i = some n)
    (receiving : s.phase = .awaitRecv n) : ∃ next, exec i s = s.onReceiveAnswer n next := by
  cases i with
  | enterRemote => cases reply; simp only [exec, execEnterRemote, receiving]; exact ⟨_, rfl⟩
  | configureAndRead =>
    cases reply; simp only [exec, execConfigureAndRead, receiving]; exact ⟨_, rfl⟩
  | setHold => cases reply; simp only [exec, execSetHold, receiving]; exact ⟨_, rfl⟩
  | _ => cases reply

/-- In the AwaitSettle of its own kind an operation takes the timer's elapse (R145). -/
theorem exec_awaitSettle {i : Instr} {s : State} {k : SettleKind} (settles : settleKindOf i = some k)
    (settling : s.phase = .awaitSettle k) : ∃ next, exec i s = s.onElapsed next := by
  cases i with
  | enterRemote => cases settles; simp only [exec, execEnterRemote, settling]; exact ⟨_, rfl⟩
  | configureAndRead =>
    cases settles; simp only [exec, execConfigureAndRead, settling]; exact ⟨_, rfl⟩
  | setHold => cases settles; simp only [exec, execSetHold, settling]; exact ⟨_, rfl⟩
  | _ => cases settles

/-- A device operation answers a next state in every wait that it fits. -/
theorem exec_busy_progress {s : State} {c : OpContext} (busy : s.phase ≠ .idle)
    (cur : s.cur = some c) (fits : c.fits s.phase = true) : ∃ t, exec c.request s = .next t := by
  obtain ⟨device, -, reply, settles⟩ := OpContext.fits_iff.mp fits
  cases phase : s.phase with
  | idle => exact absurd phase busy
  | awaitSend =>
    obtain ⟨next, h⟩ := exec_awaitSend device phase
    rw [h]; exact State.onSendAnswer_progress cur next
  | awaitRecv n =>
    obtain ⟨next, h⟩ := exec_awaitRecv (reply n phase) phase
    rw [h]; exact State.onReceiveAnswer_progress cur n next
  | awaitSettle k =>
    obtain ⟨next, h⟩ := exec_awaitSettle (settles k phase) phase
    rw [h]; exact State.onElapsed_progress cur next

/-- A step of an engine in a wait runs the device operation in CUR. -/
theorem step_of_busy {s : State} {c : OpContext} (input : s.resetInput = false) (busy : s.phase ≠ .idle)
    (cur : s.cur = some c) (device : isDevice c.request = true) : step s = exec c.request s := by
  unfold step
  rw [if_neg (by simp [input])]
  split
  · exact absurd ‹s.phase = .idle› busy
  · simp only [cur, device, if_true]

/-- A step of an idle engine answers a next state. -/
theorem step_idle_progress {s : State} (input : s.resetInput = false) (idle : s.phase = .idle) :
    s.stepsOn := by
  unfold State.stepsOn step
  rw [if_neg (by simp [input])]
  simp only [idle]
  cases port : s.takeRequest with
  | none => exact ⟨s, rfl⟩
  | some taken =>
    obtain ⟨request, u⟩ := taken
    obtain ⟨rest, -, rfl⟩ := State.takeRequest_eq_some.mp port
    dsimp only
    cases decodeRequest s.params request with
    | error e => exact ⟨_, rfl⟩
    | ok i => exact exec_idle_progress i idle

/-- A step of a consistent engine answers a next state. -/
theorem State.consistent.stepsOn {s : State} (h : s.consistent) : s.stepsOn := by
  obtain ⟨⟨i1, -⟩, fits⟩ := h
  cases input : s.resetInput with
  | true => exact ⟨s.applyReset, by simp [step, input]⟩
  | false =>
    by_cases idle : s.phase = .idle
    · exact step_idle_progress input idle
    · obtain ⟨c, cur⟩ := Option.ne_none_iff_exists'.mp (mt i1.mpr idle)
      obtain ⟨device, -⟩ := OpContext.fits_iff.mp (fits c cur)
      rw [State.stepsOn, step_of_busy input idle cur device]
      exact exec_busy_progress idle cur (fits c cur)

/-- Settles O58: a consistent engine steps on, and every move keeps R33 and leaves CUR fitting PHASE. -/
theorem consistentEnginesNeverStop : Obligations.ConsistentEnginesNeverStop := by
  intro s consistent
  obtain ⟨t, h⟩ := consistent.stepsOn
  obtain ⟨inv, fits⟩ := consistent
  exact ⟨t, h, (step_move h).sessionInv inv, (step_move h).fits fits⟩

end Sys2Proof.Machine
end

section
/-! SUPPORT. What the moves write, field by field, and the frame of the pure operations. -/

namespace Sys2Proof.Machine

/-! ### Reset and resumption -/

/-- Settles O1. -/
theorem resetGivesTheTable : Obligations.ResetGivesTheTable :=
  ⟨rfl, rfl, rfl, rfl, rfl, rfl, rfl, rfl, rfl⟩

/-- Settles O55: the machine at reset is idle, with nothing pending. -/
theorem sessionInvariantAtReset : Obligations.SessionInvariantAtReset :=
  sessionInv_of_idle rfl rfl rfl fun _ => rfl

/-- Settles O57: at reset no operation is in CUR. -/
theorem consistencyAtReset : Obligations.ConsistencyAtReset :=
  ⟨sessionInvariantAtReset, by rintro _ ⟨⟩⟩

/-- Settles O39. -/
theorem stepResumesTheOperation : Obligations.StepResumesTheOperation :=
  fun _ _ input busy cur device => step_of_busy input busy cur device

/-! ### Parameters, buffers and records -/

/-- No move writes the parameters. -/
theorem Move.params {s t : State} (m : Move s t) : t.params = s.params := by
  cases m <;> rfl

/-- Settles O54: no move writes the parameters. -/
theorem stepsKeepTheParameters : Obligations.StepsKeepTheParameters :=
  fun _ _ h => (step_move h).params

/-- A whole reply has the length of a short or of a long frame (R8). -/
theorem ReplyKind.length_eq (n : ReplyKind) : n.length = 14 ∨ n.length = 32 := by
  cases n <;> simp [ReplyKind.length]

/-- What a wait for the transport leaves in RXBUF is whole if RXBUF was. -/
theorem Exchanging.buffer_whole {s : State} {c : OpContext} {buf : Option Bytes}
    (exchanging : Exchanging s c buf) (rx : ∀ f ∈ s.rxBuf, f.length = 14 ∨ f.length = 32) :
    ∀ f ∈ buf, f.length = 14 ∨ f.length = 32 := by
  rcases exchanging.whole with rfl | ⟨b, n, rfl, whole⟩
  · exact rx
  · rintro _ ⟨⟩; rw [whole]; exact n.length_eq

/-- Every move keeps the frame buffers whole. -/
theorem Move.buffersWhole {s t : State} (m : Move s t) (whole : s.buffersWhole) :
    t.buffersWhole := by
  obtain ⟨tx, rx⟩ := whole
  cases m with
  | reset => exact ⟨by rintro _ ⟨⟩, by rintro _ ⟨⟩⟩
  | wait | answer | attach | detach | sent | hold | cleared | elapse => exact ⟨tx, rx⟩
  | start c f rest idle session device owe frame => exact ⟨by rintro _ ⟨⟩; exact frame, rx⟩
  | serve c f settling device owe frame => exact ⟨by rintro _ ⟨⟩; exact frame, rx⟩
  | lose c e sends recvs buf exchanging => exact ⟨tx, exchanging.buffer_whole rx⟩
  | defer c e kind sends recvs buf exchanging => exact ⟨tx, exchanging.buffer_whole rx⟩
  | fail c e sends recvs buf exchanging => exact ⟨tx, exchanging.buffer_whole rx⟩
  | remote c b r rest receiving cur request answers short =>
    exact ⟨tx, by rintro _ ⟨⟩; exact .inl short⟩
  | emit c b r rest receiving cur settles long => exact ⟨tx, by rintro _ ⟨⟩; exact .inr long⟩
  | holdReply c flag b r rest receiving cur request answers short =>
    exact ⟨tx, by rintro _ ⟨⟩; exact .inl short⟩

/-- Settles O59: both buffers are empty at reset, and every move keeps them whole. -/
theorem stepsKeepTheBuffersWhole : Obligations.StepsKeepTheBuffersWhole :=
  ⟨⟨by rintro _ ⟨⟩, by rintro _ ⟨⟩⟩, fun _ _ whole h => (step_move h).buffersWhole whole⟩

/-- Settles O53: of the moves in a wait only a good reply of CONFIGURE_AND_READ writes RESULTS, and it
appends its record. -/
theorem recordsStandOnceEmitted : Obligations.RecordsStandOnceEmitted := by
  intro s t input h busy
  cases step_move h with
  | reset input' => simp [input] at input'
  | answer o rest idle => exact absurd idle busy
  | attach rest idle => exact absurd idle busy
  | detach rest idle => exact absurd idle busy
  | start c f rest idle => exact absurd idle busy
  | emit c b r => exact .inr ⟨r, rfl, rfl⟩
  | wait | lose | defer | fail | sent | hold | cleared | remote | holdReply | elapse | serve =>
    exact .inl rfl

/-! ### LIFECYCLE and HELD -/

/-- The fatal kinds of R181. -/
theorem ErrorKind.fatal_iff {k : ErrorKind} :
    k.fatal = true ↔ k = .powerHeadOff ∨ k = .eepromFault ∨ k = .transportError := by
  cases k <;> simp [ErrorKind.fatal]

/-- Settles O49: of the moves only ATTACH, DETACH, the right echo and a fatal error write LIFECYCLE. -/
theorem onlyFourRulesWriteLifecycle : Obligations.OnlyFourRulesWriteLifecycle := by
  refine ⟨rfl, fun s t input h changed => ?_⟩
  cases step_move h with
  | reset input' => simp [input] at input'
  | attach rest idle port out => exact .inl ⟨idle, out, rfl, by simp [port]⟩
  | detach rest idle port => exact .inr (.inl ⟨idle, rfl, by simp [port]⟩)
  | remote c b r rest receiving cur request answers whole decoded echo =>
    obtain ⟨head, command, parameter⟩ := echoMismatch_eq_none.mp echo
    exact .inr (.inr (.inl ⟨receiving, rfl, rfl, c, b, rest, r, cur, request, answers, decoded, head,
      command, parameter⟩))
  | lose c e sends recvs buf exchanging fatal =>
    exact .inr (.inr (.inr ⟨rfl, _, _, rfl, ErrorKind.fatal_iff.mp fatal⟩))
  | wait | answer | start | defer | fail | sent | hold | cleared | emit | holdReply | elapse
  | serve => exact absurd rfl changed

/-- What can write HELD in a move: entry to Disconnected, and the two successes of SET_HOLD. -/
theorem Move.held {s t : State} (m : Move s t) (changed : t.held ≠ s.held) :
    (t.lifecycle = .disconnected ∧ t.held = .unknown) ∨
    (∃ c flag, s.cur = some c ∧ c.request = .setHold flag ∧ t.held = heldOf flag ∧
      t.phase = .awaitSettle .hold ∧
      ((s.phase = .awaitSend ∧ s.params.holdExpectsReply = false ∧
          ∃ rest, s.sendAnswers = .count 14 :: rest) ∨
        (s.phase = .awaitRecv .short ∧ ∃ b rest r, s.recvAnswers = .bytes b :: rest ∧
          decodeShort s.params b = .ok r))) := by
  cases m with
  | reset | detach | lose => exact .inl ⟨rfl, rfl⟩
  | hold c flag rest sending cur request answers silent =>
    exact .inr ⟨c, flag, cur, request, rfl, rfl, .inl ⟨sending, silent, rest, answers⟩⟩
  | holdReply c flag b r rest receiving cur request answers whole decoded =>
    exact .inr ⟨c, flag, cur, request, rfl, rfl, .inr ⟨receiving, b, rest, r, answers, decoded⟩⟩
  | wait | answer | attach | start | defer | fail | sent | cleared | remote | emit | elapse
  | serve => exact absurd rfl changed

/-- Every move that enters Disconnected makes HELD Unknown. -/
theorem Move.held_of_disconnected {s t : State} (m : Move s t) (session : s.inSession)
    (out : t.lifecycle = .disconnected) : t.held = .unknown := by
  cases m with
  | reset | detach | lose => rfl
  | attach => cases out
  | remote => cases out
  | wait | answer | start | defer | fail | sent | hold | cleared | emit | holdReply | elapse
  | serve => exact absurd out session

/-- Settles O50: of the moves only entry to Disconnected, which always does, and a successful SET_HOLD
write HELD. -/
theorem onlySetHoldAndDisconnectWriteHeld : Obligations.OnlySetHoldAndDisconnectWriteHeld :=
  ⟨rfl, fun _ _ h => ⟨(step_move h).held, (step_move h).held_of_disconnected⟩⟩

/-! ### The pure operations -/

/-- A pure function's answer, mapped to a result, is delivered on the accepted state and nothing else is
written, because its errors are FormatError, ChecksumError or RangeError, of which none is fatal. -/
theorem State.answer_accept_map {α : Type} {r : Except Raised α} (f : α → Result)
    (errors : ∀ e, r = .error e → e = .range ∨ e = .checksum ∨ ∃ reason, e = .format reason)
    (s : State) : s.accept.answer (r.map f) = s.answered (outcomeOf (r.map f)) := by
  refine State.answer_accept (fun e he => ?_) s
  cases r with
  | ok v => cases he
  | error e' =>
    cases he
    rcases errors e rfl with rfl | rfl | ⟨reason, rfl⟩ <;> rfl

/-- COMPUTE_BCC's one error is BadLength (R91). -/
theorem computeBcc_eq_error {span : Bytes} {e : Raised} (h : computeBcc span = .error e) :
    e = .format .badLength := by
  unfold computeBcc at h
  split_ifs at h
  cases h; rfl

/-- Packing a read parameter fails only in its range selection (R125). -/
theorem packReadParam_eq_error {p : Params} {hold ccf : Bool} {range : Bytes} {e : Raised}
    (h : packReadParam p hold ccf range = .error e) : selectRange p range = .error e := by
  unfold packReadParam at h
  split at h
  · cases h; assumption
  · cases h

section PureAnswers
variable (s : State)

/-- COMPUTE_BCC (R91) delivers its function's answer and writes nothing else. -/
theorem exec_computeBcc (span : Bytes) :
    exec (.computeBcc span) s =
      .next (s.answered (outcomeOf (computeBcc span))) :=
  congrArg _ (State.answer_accept (fun _ h => by rw [computeBcc_eq_error h]; rfl) s)

/-- ENCODE_SHORT (R92) delivers its function's answer and writes nothing else. -/
theorem exec_encodeShort (head : Byte) (command parameter : Bytes) :
    exec (.encodeShort head command parameter) s =
      .next (s.answered (outcomeOf ((encodeShort head command parameter).map .frame))) :=
  congrArg _ (State.answer_accept_map .frame (fun _ h => .inr (.inr (encodeShort_eq_error h))) s)

/-- DECODE_SHORT (R94) delivers its function's answer and writes nothing else. -/
theorem exec_decodeShort (frame : Bytes) :
    exec (.decodeShort frame) s =
      .next (s.answered (outcomeOf ((decodeShort s.params frame).map .short))) :=
  congrArg _ (State.answer_accept_map .short (fun _ h => .inr (decodeShort_eq_error h)) s)

/-- DECODE_LONG (R98) delivers its function's answer and writes nothing else. -/
theorem exec_decodeLong (frame : Bytes) :
    exec (.decodeLong frame) s =
      .next (s.answered (outcomeOf ((decodeLong s.params frame).map .long))) :=
  congrArg _ (State.answer_accept_map .long (fun _ h => .inr (decodeLong_eq_error h)) s)

/-- CLASSIFY_STATUS (R110) delivers its function's answer and writes nothing else. -/
theorem exec_classifyStatus (status : Bytes) :
    exec (.classifyStatus status) s =
      .next (s.answered (outcomeOf ((classifyStatus status).map .status))) :=
  congrArg _ (State.answer_accept_map .status (fun _ h =>
    .inr (.inr ((classifyStatus_eq_error h).elim (⟨_, ·⟩) (⟨_, ·⟩)))) s)

/-- DECODE_MEASUREMENT (R116) delivers its function's answer and writes nothing else. -/
theorem exec_decodeMeasurement (field : Bytes) :
    exec (.decodeMeasurement field) s =
      .next (s.answered (outcomeOf ((decodeMeasurement field).map .reading))) :=
  congrArg _ (State.answer_accept_map .reading (fun _ h =>
    .inr (.inr ((decodeMeasurement_eq_error h).elim (⟨_, ·⟩) (⟨_, ·⟩)))) s)

/-- SELECT_RANGE (R121) delivers its function's answer and writes nothing else. -/
theorem exec_selectRange (range : Bytes) :
    exec (.selectRange range) s =
      .next (s.answered (outcomeOf ((selectRange s.params range).map .rangeCode))) :=
  congrArg _ (State.answer_accept_map .rangeCode (fun _ h =>
    (selectRange_eq_error h).imp_right fun h => .inr ⟨_, h⟩) s)

/-- PACK_READ_PARAM (R125) delivers its function's answer and writes nothing else. -/
theorem exec_packReadParam (hold ccf : Bool) (range : Bytes) :
    exec (.packReadParam hold ccf range) s =
      .next (s.answered (outcomeOf ((packReadParam s.params hold ccf range).map .parameter))) :=
  congrArg _ (State.answer_accept_map .parameter (fun _ h =>
    (selectRange_eq_error (packReadParam_eq_error h)).imp_right fun h => .inr ⟨_, h⟩) s)

end PureAnswers

/-- Settles O21: each pure operation delivers its function's answer; no other operation has an opcode
from 0x20 on. -/
theorem pureOperationsWriteOnlyTheirOutcome : Obligations.PureOperationsWriteOnlyTheirOutcome := by
  intro i pure
  cases i with
  | computeBcc span =>
    exact ⟨fun _ => outcomeOf (computeBcc span),
      fun s => exec_computeBcc s span⟩
  | encodeShort head command parameter =>
    exact ⟨fun _ => outcomeOf ((encodeShort head command parameter).map .frame),
      fun s => exec_encodeShort s head command parameter⟩
  | decodeShort frame =>
    exact ⟨fun p => outcomeOf ((decodeShort p frame).map .short),
      fun s => exec_decodeShort s frame⟩
  | decodeLong frame =>
    exact ⟨fun p => outcomeOf ((decodeLong p frame).map .long),
      fun s => exec_decodeLong s frame⟩
  | classifyStatus status =>
    exact ⟨fun _ => outcomeOf ((classifyStatus status).map .status),
      fun s => exec_classifyStatus s status⟩
  | decodeMeasurement field =>
    exact ⟨fun _ => outcomeOf ((decodeMeasurement field).map .reading),
      fun s => exec_decodeMeasurement s field⟩
  | selectRange range =>
    exact ⟨fun p => outcomeOf ((selectRange p range).map .rangeCode),
      fun s => exec_selectRange s range⟩
  | packReadParam hold ccf range =>
    exact ⟨fun p => outcomeOf ((packReadParam p hold ccf range).map .parameter),
      fun s => exec_packReadParam s hold ccf range⟩
  | _ => exact absurd pure (by simp [isPure, Instr.opcode])

end Sys2Proof.Machine
end

section
/-! SUPPORT. The engine's memory between steps (20_memory.md): the request port in a wait, the whole
frames that a step moves, and what a pending settle holds back. -/

namespace Sys2Proof.Machine

/-! ### The request port -/

/-- Settles O38: the oldest request is taken off the port, and as it decodes, `exec` runs it. -/
theorem stepRunsTheDecodedRequest : Obligations.StepRunsTheDecodedRequest := by
  intro s request requests i input idle port decoded _
  have taken : s.takeRequest = some (request, { s with hostPort := requests }) :=
    State.takeRequest_eq_some.mpr ⟨requests, port, rfl⟩
  simp only [step, input, Bool.false_eq_true, if_false, idle, taken, decoded]

/-- A step of an engine in a wait stops where no operation is in CUR (log 12). -/
theorem step_of_no_operation {s : State} (input : s.resetInput = false) (busy : s.phase ≠ .idle)
    (cur : s.cur = none) : step s = .fault .noOperation := by
  unfold step
  rw [if_neg (by simp [input])]
  split
  · exact absurd ‹s.phase = .idle› busy
  · simp only [cur]

/-- A step of an engine in a wait stops where the operation in CUR has no waits (log 12). -/
theorem step_of_no_device {s : State} {c : OpContext} (input : s.resetInput = false)
    (busy : s.phase ≠ .idle) (cur : s.cur = some c) (device : isDevice c.request ≠ true) :
    step s = .fault .noSuchWait := by
  unfold step
  rw [if_neg (by simp [input])]
  split
  · exact absurd ‹s.phase = .idle› busy
  · simp only [cur, if_neg device]

/-- What a step answers, with one more request waiting at the port afterwards. -/
def alsoIssued (request : Bytes) :
    Host.Outcome State Fault Refusal → Host.Outcome State Fault Refusal
  | .next t => .next (t.issue request)
  | .fault r => .fault r
  | .refused r => .refused r

section LateRequest
variable (q : Bytes) (s : State)

/-- Error entry does not see the request port. -/
theorem State.raise_issue (e : Raised) (index : Nat) (head : Byte) :
    (s.issue q).raise e index head = (s.raise e index head).issue q := by
  simp only [State.raise, State.issue_cur]
  split
  · rfl
  · split
    · rfl
    · split <;> rfl

/-- The start of an exchange does not see the request port. -/
theorem State.exchange_issue (c : OpContext) (frame : Except Raised Bytes) :
    (s.issue q).exchange c frame = (s.exchange c frame).issue q := by
  cases frame with
  | ok f => rfl
  | error e => exact s.raise_issue q e c.index c.sentHead

/-- The end of a `Send` does not see the request port, if what follows it does not. -/
theorem State.onSendAnswer_issue {next : OpContext → State → State}
    (blind : ∀ c t, next c (State.issue q t) = (next c t).issue q) :
    (s.issue q).onSendAnswer next = alsoIssued q (s.onSendAnswer next) := by
  simp only [State.onSendAnswer, State.issue_cur, State.issue_sendAnswers]
  cases s.cur with
  | none => rfl
  | some c =>
    cases s.sendAnswers with
    | nil => rfl
    | cons a rest =>
      dsimp only
      cases judgeSend a with
      | some reason =>
        exact congrArg Host.Outcome.next
          (State.raise_issue q { s with cur := some c, sendAnswers := rest } ..)
      | none =>
        exact congrArg Host.Outcome.next (blind c { s with cur := some c, sendAnswers := rest })

/-- The end of a `Receive` does not see the request port, if what follows it does not. -/
theorem State.onReceiveAnswer_issue (n : ReplyKind) {next : OpContext → Bytes → State → State}
    (blind : ∀ c b t, next c b (State.issue q t) = (next c b t).issue q) :
    (s.issue q).onReceiveAnswer n next = alsoIssued q (s.onReceiveAnswer n next) := by
  simp only [State.onReceiveAnswer, State.issue_cur, State.issue_recvAnswers]
  cases s.cur with
  | none => rfl
  | some c =>
    cases s.recvAnswers with
    | nil => rfl
    | cons a rest =>
      dsimp only
      cases judgeReceive n a with
      | none =>
        exact congrArg Host.Outcome.next
          (State.raise_issue q { s with cur := some c, recvAnswers := rest } ..)
      | some b =>
        exact congrArg Host.Outcome.next
          (blind c b { s with cur := some c, recvAnswers := rest, rxBuf := some b })

/-- The end of a settle does not see the request port, if what follows it does not. -/
theorem State.onElapsed_issue {next : OpContext → State → State}
    (blind : ∀ c t, next c (State.issue q t) = (next c t).issue q) :
    (s.issue q).onElapsed next = alsoIssued q (s.onElapsed next) := by
  simp only [State.onElapsed, State.issue_cur]
  cases s.cur with
  | none => rfl
  | some c =>
    dsimp only
    cases c.failure with
    | some g => rfl
    | none =>
      exact congrArg Host.Outcome.next (blind c
        { s with settlePending := false, cur := some { c with owe := none, failure := none } })

/-- ENTER_REMOTE judges its reply without the request port. -/
theorem enterRemoteReply_issue (c : OpContext) (b : Bytes) :
    enterRemoteReply c b (s.issue q) = (enterRemoteReply c b s).issue q := by
  simp only [enterRemoteReply, State.issue_params]
  split
  · exact s.raise_issue q _ _ _
  · split
    · exact s.raise_issue q _ _ _
    · rfl

/-- CONFIGURE_AND_READ judges its reply without the request port. -/
theorem configureAndReadReply_issue (c : OpContext) (b : Bytes) :
    configureAndReadReply c b (s.issue q) = (configureAndReadReply c b s).issue q := by
  simp only [configureAndReadReply, State.issue_params]
  split
  · exact s.raise_issue q _ _ _
  · rfl

/-- CONFIGURE_AND_READ goes on to a head of its list without the request port. -/
theorem serveHead_issue (heads : List Byte) (hold ccf : Bool) (range : Bytes) (rc : Byte)
    (k : Nat) :
    serveHead heads hold ccf range rc k (s.issue q) =
      (serveHead heads hold ccf range rc k s).issue q := by
  simp only [serveHead, State.issue_params]
  split
  · rfl
  · exact s.exchange_issue q _ _

/-- SET_HOLD goes on after its send without the request port. -/
theorem setHoldSent_issue (flag : Bool) :
    setHoldSent flag (s.issue q) = (setHoldSent flag s).issue q := by
  unfold setHoldSent
  by_cases expects : s.params.holdExpectsReply = true
  · rw [if_pos expects, if_pos (show (s.issue q).params.holdExpectsReply = true from expects)]; rfl
  · rw [if_neg expects, if_neg (show (s.issue q).params.holdExpectsReply ≠ true from expects)]; rfl

/-- SET_HOLD judges its reply without the request port. -/
theorem setHoldReply_issue (flag : Bool) (c : OpContext) (b : Bytes) :
    setHoldReply flag c b (s.issue q) = (setHoldReply flag c b s).issue q := by
  simp only [setHoldReply, State.issue_params]
  split
  · exact s.raise_issue q _ _ _
  · rfl

variable {s}

/-- In a wait ENTER_REMOTE does not see the request port. -/
theorem execEnterRemote_issue (busy : s.phase ≠ .idle) :
    execEnterRemote (s.issue q) = alsoIssued q (execEnterRemote s) := by
  simp only [execEnterRemote, State.issue_phase]
  split
  · exact absurd ‹_› busy
  · exact s.onSendAnswer_issue q fun _ _ => rfl
  · exact s.onReceiveAnswer_issue q _ fun c b t => enterRemoteReply_issue q t c b
  · rfl
  · exact s.onElapsed_issue q fun _ _ => rfl
  · rfl
  · rfl

/-- In a wait CONFIGURE_AND_READ does not see the request port. -/
theorem execConfigureAndRead_issue (heads : List Byte) (hold ccf : Bool) (range : Bytes)
    (busy : s.phase ≠ .idle) :
    execConfigureAndRead heads hold ccf range (s.issue q) =
      alsoIssued q (execConfigureAndRead heads hold ccf range s) := by
  simp only [execConfigureAndRead, State.issue_phase]
  split
  · exact absurd ‹_› busy
  · exact s.onSendAnswer_issue q fun _ _ => rfl
  · exact s.onReceiveAnswer_issue q _ fun c b t => configureAndReadReply_issue q t c b
  · rfl
  · exact s.onElapsed_issue q fun _ t => serveHead_issue q t ..
  · rfl
  · rfl

/-- In a wait SET_HOLD does not see the request port. -/
theorem execSetHold_issue (flag : Bool) (busy : s.phase ≠ .idle) :
    execSetHold flag (s.issue q) = alsoIssued q (execSetHold flag s) := by
  simp only [execSetHold, State.issue_phase]
  split
  · exact absurd ‹_› busy
  · exact s.onSendAnswer_issue q fun _ t => setHoldSent_issue q t flag
  · exact s.onReceiveAnswer_issue q _ fun c b t => setHoldReply_issue q t flag c b
  · rfl
  · exact s.onElapsed_issue q fun _ _ => rfl
  · rfl
  · rfl

/-- In a wait CLEAR_INTEGRATED does not see the request port. -/
theorem execClearIntegrated_issue (head : Byte) (busy : s.phase ≠ .idle) :
    execClearIntegrated head (s.issue q) = alsoIssued q (execClearIntegrated head s) := by
  simp only [execClearIntegrated, State.issue_phase]
  split
  · exact absurd ‹_› busy
  · exact s.onSendAnswer_issue q fun _ _ => rfl
  · rfl
  · rfl

/-- In a wait no device operation sees the request port (R54). -/
theorem exec_issue {i : Instr} (device : isDevice i = true) (busy : s.phase ≠ .idle) :
    exec i (s.issue q) = alsoIssued q (exec i s) := by
  cases i with
  | enterRemote => exact execEnterRemote_issue q busy
  | configureAndRead heads hold ccf range =>
    exact execConfigureAndRead_issue q heads hold ccf range busy
  | setHold flag => exact execSetHold_issue q flag busy
  | clearIntegrated head => exact execClearIntegrated_issue q head busy
  | _ => cases device

/-- In a wait a step does not see the request port (R54). -/
theorem step_issue (input : s.resetInput = false) (busy : s.phase ≠ .idle) :
    step (s.issue q) = alsoIssued q (step s) := by
  cases cur : s.cur with
  | none =>
    rw [step_of_no_operation input busy cur, step_of_no_operation (s := s.issue q) input busy cur]
    rfl
  | some c =>
    by_cases device : isDevice c.request = true
    · rw [step_of_busy input busy cur device, step_of_busy (s := s.issue q) input busy cur device]
      exact exec_issue q device busy
    · rw [step_of_no_device input busy cur device,
        step_of_no_device (s := s.issue q) input busy cur device]
      rfl

end LateRequest

/-- Settles O48: in a wait the step goes on in CUR, and nothing there sees the port. -/
theorem busyEngineLeavesRequestsWaiting : Obligations.BusyEngineLeavesRequestsWaiting := by
  intro s request input busy
  rw [step_issue request input busy]
  cases step s <;> rfl

/-! ### Whole frames -/

/-- A move hands the transport nothing, or one whole frame that stands in TXBUF (R46). -/
theorem Move.txStream {s t : State} (m : Move s t) (input : s.resetInput = false) :
    t.txStream = s.txStream ∧ t.txBuf = s.txBuf ∨
      ∃ f, f.length = 14 ∧ t.txStream = s.txStream ++ f ∧ t.txBuf = some f ∧
        t.phase = .awaitSend := by
  cases m with
  | reset input' => simp [input] at input'
  | start c f rest idle session device owe frame => exact .inr ⟨f, frame, rfl, rfl, rfl⟩
  | serve c f settling device owe frame => exact .inr ⟨f, frame, rfl, rfl, rfl⟩
  | wait | answer | attach | detach | lose | defer | fail | sent | hold | cleared | remote | emit
  | holdReply | elapse => exact .inl ⟨rfl, rfl⟩

/-- No operation writes RXBUF at an idle engine. -/
theorem exec_idle_rxBuf {i : Instr} {s t : State} (idle : s.phase = .idle)
    (h : exec i s = .next t) : t.rxBuf = s.rxBuf := by
  rcases exec_idle idle h with
    ⟨o, rfl⟩ | ⟨-, -, rfl⟩ | ⟨-, rfl⟩ | ⟨-, -, c, f, -, -, -, -, rfl⟩ <;> rfl

/-- No operation writes RXBUF after a whole send. -/
theorem afterSend_rxBuf {i : Instr} {c : OpContext} {u t : State} (h : afterSend i c u t) :
    t.rxBuf = u.rxBuf := by
  rcases h with ⟨n, kind, -, -, rfl⟩ | ⟨flag, -, -, rfl⟩ | ⟨head, -, rfl⟩ <;> rfl

/-- Whatever an operation makes of a reply, RXBUF stays. -/
theorem afterReply_rxBuf {i : Instr} {c : OpContext} {b : Bytes} {u t : State}
    (h : afterReply i c b u t) : t.rxBuf = u.rxBuf := by
  rcases h with ⟨e, rfl⟩ | ⟨-, -, rfl⟩ | ⟨heads, hold, ccf, range, r, -, -, rfl⟩ | ⟨flag, -, -, rfl⟩
  · exact State.raise_rxBuf ..
  all_goals rfl

/-- No operation writes RXBUF after a settle. -/
theorem afterSettle_rxBuf {i : Instr} {c : OpContext} {u t : State} (h : afterSettle i c u t) :
    t.rxBuf = u.rxBuf := by
  rcases h with rfl | ⟨e, index, head, -, rfl⟩ | ⟨heads, hold, ccf, range, c', f, -, -, -, rfl⟩
  all_goals rfl

/-- In a wait RXBUF stays, or takes a whole reply of the length that the operation receives (R132). -/
theorem exec_busy_rxBuf {i : Instr} {s t : State} {c : OpContext} (device : isDevice i = true)
    (busy : s.phase ≠ .idle) (cur : s.cur = some c) (h : exec i s = .next t) :
    t.rxBuf = s.rxBuf ∨ ∃ b n, s.phase = .awaitRecv n ∧ replyKindOf i = some n ∧
      t.rxBuf = some b ∧ b.length = n.length := by
  rcases exec_busy device busy cur h with
    ⟨-, ⟨-, rfl⟩ | ⟨a, rest, -, ⟨reason, -, rfl⟩ | ⟨-, sent⟩⟩⟩ |
    ⟨n, receiving, reply, ⟨-, rfl⟩ | ⟨a, rest, -, ⟨-, rfl⟩ | ⟨b, -, whole, replied⟩⟩⟩ |
    ⟨kind, -, -, ⟨g, -, rfl⟩ | ⟨-, settled⟩⟩
  · exact .inl rfl
  · exact .inl (State.raise_rxBuf ..)
  · exact .inl (afterSend_rxBuf (u := s.sendTaken rest) sent)
  · exact .inl rfl
  · exact .inl (State.raise_rxBuf ..)
  · exact .inr ⟨b, n, receiving, reply, afterReply_rxBuf replied, whole⟩
  · exact .inl rfl
  · exact .inl (afterSettle_rxBuf (u := { s with settlePending := false, cur := _ }) settled)

/-- A step without reset leaves RXBUF, or puts there a whole reply of the length that the operation in
CUR receives (R46, R132). -/
theorem step_rxBuf {s t : State} (input : s.resetInput = false) (h : step s = .next t) :
    t.rxBuf = s.rxBuf ∨ ∃ b n c, s.phase = .awaitRecv n ∧ s.cur = some c ∧
      replyKindOf c.request = some n ∧ t.rxBuf = some b ∧ b.length = n.length := by
  rcases step_next h with ⟨input', -⟩ | ⟨-, -, -, rfl⟩ |
    ⟨-, idle, q, rest, -, ⟨e, -, rfl⟩ | ⟨i, -, ran⟩⟩ | ⟨-, busy, c, cur, device, ran⟩
  · simp [input] at input'
  · exact .inl rfl
  · exact .inl (State.raise_rxBuf ..)
  · exact .inl (exec_idle_rxBuf (s := { s with hostPort := rest }) idle ran)
  · rcases exec_busy_rxBuf device busy cur ran with same | ⟨b, n, receiving, reply, buf, whole⟩
    · exact .inl same
    · exact .inr ⟨b, n, c, receiving, cur, reply, buf, whole⟩

/-- Settles O51: the two moves that send put a whole frame into TXBUF and the TX stream; RXBUF takes only
the reply that the operation in CUR waits for, which is long for CONFIGURE_AND_READ alone (R72). -/
theorem stepsMoveWholeFrames : Obligations.StepsMoveWholeFrames := by
  intro s t input h
  refine ⟨(step_move h).txStream input, ?_⟩
  rcases step_rxBuf input h with same | ⟨b, n, c, receiving, cur, reply, buf, whole⟩
  · exact .inl same
  · refine .inr ⟨b, n, c, receiving, cur, ?_, buf, ?_⟩
    · cases request : c.request <;> rw [request] at reply <;> cases reply <;> rfl
    · cases n <;> exact whole

/-! ### A pending settle -/

/-- A move into a settle, or one that stays there, neither sends nor delivers (R53). -/
theorem Move.silent_of_settling {s t : State} (m : Move s t) (settling : t.phase.settling = true) :
    t.txStream = s.txStream ∧ t.outcome = s.outcome := by
  cases m with
  | wait | defer | hold | remote | emit | holdReply => exact ⟨rfl, rfl⟩
  | reset | answer | attach | detach | start | lose | fail | sent | cleared | elapse | serve =>
    cases settling

/-- Settles O52: by R33 (I3), which the step keeps, a settle pending after it stands in AwaitSettle, and
no move that ends there sends or delivers. -/
theorem nothingIsSentWhileSettling : Obligations.NothingIsSentWhileSettling := by
  intro s t inv h pending
  obtain ⟨-, -, i3, -⟩ := stepsKeepTheSessionInvariant s t inv h
  exact ⟨i3 pending, (step_move h).silent_of_settling (i3 pending)⟩

end Sys2Proof.Machine
end

section
/-! SUPPORT. The request format (30_encoding.md R74 to R76) in both directions: what each operand's bytes
are read as, what bytes an operand was read from, and which FormatError a defect gives. -/

namespace Sys2Proof.Machine

/-! ### From a row's operands to the answer of the decoder -/

/-- Every operation has its row of R76. -/
theorem opcodeRow (i : Instr) : Laws.OpcodeRow.Statement i := by
  cases i with
  | attach => exact Laws.OpcodeRow.attach
  | detach => exact Laws.OpcodeRow.detach
  | readState => exact Laws.OpcodeRow.readState
  | enterRemote => exact Laws.OpcodeRow.enterRemote
  | configureAndRead heads hold ccf range => exact Laws.OpcodeRow.configureAndRead heads hold ccf range
  | setHold flag => exact Laws.OpcodeRow.setHold flag
  | clearIntegrated head => exact Laws.OpcodeRow.clearIntegrated head
  | computeBcc span => exact Laws.OpcodeRow.computeBcc span
  | encodeShort head command parameter => exact Laws.OpcodeRow.encodeShort head command parameter
  | decodeShort frame => exact Laws.OpcodeRow.decodeShort frame
  | decodeLong frame => exact Laws.OpcodeRow.decodeLong frame
  | classifyStatus status => exact Laws.OpcodeRow.classifyStatus status
  | decodeMeasurement field => exact Laws.OpcodeRow.decodeMeasurement field
  | selectRange range => exact Laws.OpcodeRow.selectRange range
  | packReadParam hold ccf range => exact Laws.OpcodeRow.packReadParam hold ccf range

/-- Operands of a row, each in its bounds, make a well-formed operation: R74 bounds nothing else. -/
theorem wellFormed_of_operandFits {p : Params} {i : Instr} {fmt : List OperandType}
    (row : operandFormat p i.opcode = some fmt)
    (fit : List.Forall₂ (fun t v => operandFits t v = true) fmt i.operands) :
    i.wellFormed p = true := by
  cases i with
  | attach | detach | readState | enterRemote | setHold | clearIntegrated => rfl
  | computeBcc s | decodeShort s | decodeLong s | classifyStatus s | decodeMeasurement s
  | selectRange s =>
    cases row
    obtain _ | ⟨bounded, -⟩ := fit
    exact bounded
  | configureAndRead | encodeShort | packReadParam =>
    cases row
    simpa [Instr.wellFormed, Instr.operands, operandFits] using fit

/-- A request whose operands have no defect decodes to what its row builds from them. -/
theorem decodeRequest_of_parse {p : Params} {opcode : Byte} {rest : Bytes} {fmt : List OperandType}
    {vals : List Operand} {i : Instr} (row : operandFormat p opcode = some fmt)
    (parse : parseOperands fmt rest = (vals, [])) (build : buildInstr opcode vals = some i) :
    decodeRequest p (opcode :: rest) = .ok i := by
  simp [decodeRequest, row, parse, reportedReason, build]

/-- `r` applies to a request, and no other reason does. -/
def OnlyReason (r : FormatReason) (reasons : List FormatReason) : Prop :=
  reasons ≠ [] ∧ ∀ x ∈ reasons, x = r

/-- A single defect is the only one. -/
theorem onlyReason_singleton (r : FormatReason) : OnlyReason r [r] := by simp [OnlyReason]

/-- Where one reason alone applies, it is reported: the free choice of log 10 is not asked. -/
theorem OnlyReason.reported {r : FormatReason} {reasons : List FormatReason}
    (only : OnlyReason r reasons) (request : Bytes) : reportedReason request reasons = some r := by
  obtain ⟨applies, same⟩ := only
  cases reasons with
  | nil => exact absurd rfl applies
  | cons x xs =>
    obtain ⟨rfl, same⟩ := List.forall_mem_cons.mp same
    exact if_pos (by simpa using same)

/-- A request whose operands have defects of one reason alone is that FormatError (R74). -/
theorem decodeRequest_of_onlyReason {p : Params} {opcode : Byte} {rest : Bytes}
    {fmt : List OperandType} {r : FormatReason} (row : operandFormat p opcode = some fmt)
    (only : OnlyReason r (parseOperands fmt rest).2) :
    decodeRequest p (opcode :: rest) = .error (.format r) := by
  simp [decodeRequest, row, only.reported]

/-! ### Bool bytes -/

/-- The defects of a bool byte (R74). -/
def boolReasons (b : Byte) : List FormatReason := if b = 0x00 ∨ b = 0x01 then [] else [.badOperand]

/-- A bool byte has no defect exactly where it is 0x00 or 0x01. -/
theorem boolReasons_eq_nil {b : Byte} : boolReasons b = [] ↔ b = 0x00 ∨ b = 0x01 := by
  simp only [boolReasons, ite_eq_left_iff, reduceCtorEq, imp_false, not_not]

/-- A byte that is neither has the one defect BadOperand. -/
theorem boolReasons_of_bad {b : Byte} (h0 : b ≠ 0x00) (h1 : b ≠ 0x01) :
    boolReasons b = [.badOperand] := if_neg (not_or.mpr ⟨h0, h1⟩)

/-- Every defect of a bool byte is BadOperand. -/
theorem eq_badOperand_of_mem_boolReasons {b : Byte} {x : FormatReason} (h : x ∈ boolReasons b) :
    x = .badOperand := by
  unfold boolReasons at h
  split_ifs at h
  · cases h
  · exact List.mem_singleton.mp h

/-- A bool byte that the encoder writes has no defect. -/
theorem boolReasons_encoded (b : Bool) : boolReasons (if b then 0x01 else 0x00) = [] := by
  cases b <;> rfl

/-- A bool byte is taken alone, with its defects; a bad one is read as false. -/
theorem parseOperand_bool (b : Byte) (rest : Bytes) :
    parseOperand .bool (b :: rest) = ⟨.bool (decide (b = 0x01)), rest, boolReasons b⟩ := by
  by_cases h0 : b = 0x00
  · subst h0; rfl
  · by_cases h1 : b = 0x01
    · subst h1; rfl
    · rw [parseOperand, if_neg h0, if_neg h1, boolReasons_of_bad h0 h1, decide_eq_false h1]

/-! ### Decoding what the encoder wrote -/

/-- Encoded operands are read back one by one; only the bytes after the last one can be a defect. -/
theorem parseOperands_encode {fmt : List OperandType} {vals : List Operand}
    (fit : List.Forall₂ (fun t v => operandFits t v = true) fmt vals) (rest : Bytes) :
    parseOperands fmt (vals.flatMap encodeOperand ++ rest) = (vals, (parseOperands [] rest).2) := by
  induction fit with
  | nil => cases rest <;> rfl
  | cons h _ ih => simp [parseOperands, parseOperand_encodeOperand h, ih]

/-- Settles O44: the encoded operands are read back whole, and the opcode's row builds the operation from
them. -/
theorem decodeOfEncodeIsTheOperation : Obligations.DecodeOfEncodeIsTheOperation := by
  intro p i wf
  obtain ⟨fmt, row, build, fit⟩ := opcodeRow i p
  have parse := parseOperands_encode (fit wf) []
  rw [List.append_nil] at parse
  exact decodeRequest_of_parse row parse build

/-! ### Encoding what the decoder read -/

/-- A length byte read without a defect is in its bounds, and is the length of the bytes taken. -/
theorem parseCounted_inv {max : Nat} {tooLong : FormatReason} {bs : Bytes} {q : Parsed Bytes}
    (h : parseCounted max tooLong bs = q) (clean : q.reasons = []) :
    bs = BitVec.ofNat 8 q.value.length :: (q.value ++ q.rest) ∧ fits max q.value = true := by
  subst h
  cases bs with
  | nil => simp [parseCounted] at clean
  | cons n rest =>
    have byte := n.isLt
    unfold parseCounted at clean ⊢
    by_cases cut : rest.length < n.toNat
    · simp [cut] at clean
    · have taken : (rest.take n.toNat).length = n.toNat := List.length_take_of_le (by omega)
      simp only [cut, if_false] at clean ⊢
      have bound : n.toNat ≤ max := by simpa using clean
      refine ⟨by simp [taken], ?_⟩
      simp only [fits, taken, Bool.and_eq_true, decide_eq_true_eq]
      omega

/-- An operand read without a defect was written as its encoding, and is in its type's bounds. -/
theorem parseOperand_inv {t : OperandType} {bs : Bytes} {q : Parsed Operand}
    (h : parseOperand t bs = q) (clean : q.reasons = []) :
    bs = encodeOperand q.value ++ q.rest ∧ operandFits t q.value = true := by
  subst h
  cases t with
  | u8 =>
    cases bs with
    | nil => simp [parseOperand] at clean
    | cons b rest => exact ⟨rfl, rfl⟩
  | bool =>
    cases bs with
    | nil => simp [parseOperand] at clean
    | cons b rest =>
      rw [parseOperand_bool] at clean
      rcases boolReasons_eq_nil.mp clean with rfl | rfl <;> exact ⟨rfl, rfl⟩
  | str max => exact parseCounted_inv rfl clean
  | list max => exact parseCounted_inv rfl clean

/-- Operands read without a defect were written as their encodings, with nothing after them. -/
theorem parseOperands_inv {fmt : List OperandType} {bs : Bytes} {vals : List Operand}
    (parse : parseOperands fmt bs = (vals, [])) :
    bs = vals.flatMap encodeOperand ∧
      List.Forall₂ (fun t v => operandFits t v = true) fmt vals := by
  induction fmt generalizing bs vals with
  | nil =>
    obtain rfl := parseOperands_nil parse
    cases parse
    exact ⟨rfl, .nil⟩
  | cons t ts ih =>
    simp only [parseOperands, Prod.mk.injEq, List.append_eq_nil_iff] at parse
    obtain ⟨rfl, clean, cleanRest⟩ := parse
    obtain ⟨written, fit⟩ := parseOperand_inv rfl clean
    obtain ⟨writtenRest, fitRest⟩ := ih (Prod.ext rfl cleanRest)
    refine ⟨?_, .cons fit fitRest⟩
    rw [List.flatMap_cons, ← writtenRest]
    exact written

/-- Settles O45: what was read without a defect was written by the encoder, within the row's bounds. -/
theorem decodedRequestIsTheEncoding : Obligations.DecodedRequestIsTheEncoding := by
  intro p request i decoded
  obtain ⟨rest, fmt, rfl, row, parse⟩ := decodeRequest_eq_ok decoded
  obtain ⟨rfl, fit⟩ := parseOperands_inv parse
  exact ⟨rfl, wellFormed_of_operandFits row fit⟩

/-- Settles O43: each sample is the encoding of its operation, whose operands are in the bounds. -/
theorem sampleRequestsDecode : Obligations.SampleRequestsDecode := by
  intro p heads range span
  have decode {i : Instr} (wf : i.wellFormed p = true) : decodeRequest p (encode i) = .ok i :=
    decodeOfEncodeIsTheOperation p i wf
  have head_fits : fits p.maxHeads [0x01] = true := by simpa [fits] using heads
  have auto_fits : fits p.maxRangeLen autoText = true := by simp [fits, autoText]; omega
  have span_fits : fits p.maxBccSpan [0x41, 0x42] = true := by simp [fits]; omega
  exact ⟨decode (i := .readState) rfl,
    decode (i := .configureAndRead [0x01] false false autoText)
      (Bool.and_eq_true_iff.mpr ⟨head_fits, auto_fits⟩),
    decode (i := .setHold true) rfl, decode (i := .clearIntegrated 0x64) rfl,
    decode (i := .computeBcc [0x41, 0x42]) span_fits,
    decode (i := .encodeShort 0x07 [0x31, 0x30] [0x31, 0x33, 0x35, 0x31]) rfl⟩

end Sys2Proof.Machine
end

section
/-! SUPPORT. The format checks of 30_encoding.md R74: what each defect of a request is reported as. -/

namespace Sys2Proof.Machine

/-! ### Leftover bytes and cut requests -/

/-- Bytes after the last operand are BadOperand. -/
theorem decodeRequest_leftover {p : Params} {i : Instr} (wf : i.wellFormed p = true) (b : Byte)
    (more : Bytes) : decodeRequest p (encode i ++ b :: more) = .error (.format .badOperand) := by
  obtain ⟨fmt, row, -, fit⟩ := opcodeRow i p
  refine decodeRequest_of_onlyReason row ?_
  have parse := parseOperands_encode (fit wf) (b :: more)
  exact ⟨by simp [parse, parseOperands], by simp [parse, parseOperands]⟩

/-- Where no byte is left, every operand still due is BadOperand and no other reason applies. -/
theorem parseOperands_exhausted (fmt : List OperandType) :
    ∀ x ∈ (parseOperands fmt []).2, x = .badOperand := by
  induction fmt with
  | nil => simp [parseOperands]
  | cons t ts ih => cases t <;> simpa [parseOperands, parseOperand, parseCounted] using ih

/-- An encoded operand that is cut short is BadOperand, and no byte is left after it. -/
theorem parseOperand_cut {t : OperandType} {v : Operand} (fit : operandFits t v = true) {n : Nat}
    (cut : n < (encodeOperand v).length) :
    (parseOperand t ((encodeOperand v).take n)).rest = [] ∧
      (parseOperand t ((encodeOperand v).take n)).reasons = [.badOperand] := by
  have counted {max : Nat} {tooLong : FormatReason} {s : Bytes} (fit : fits max s = true)
      (cut : n < s.length + 1) :
      (parseCounted max tooLong ((BitVec.ofNat 8 s.length :: s).take n)).rest = [] ∧
        (parseCounted max tooLong ((BitVec.ofNat 8 s.length :: s).take n)).reasons =
          [.badOperand] := by
    cases n with
    | zero => exact ⟨rfl, rfl⟩
    | succ m =>
      simp only [fits, Bool.and_eq_true, decide_eq_true_eq] at fit
      have byte : s.length % 256 = s.length := Nat.mod_eq_of_lt (by omega)
      have short : m < s.length := by omega
      simp [parseCounted, byte, short, fit.1]
  cases t <;> cases v <;> simp only [operandFits, Bool.false_eq_true] at fit
  case u8.u8 b =>
    obtain rfl : n = 0 := Nat.lt_one_iff.mp cut
    exact ⟨rfl, rfl⟩
  case bool.bool b =>
    obtain rfl : n = 0 := Nat.lt_one_iff.mp cut
    exact ⟨rfl, rfl⟩
  case str.str max s => exact counted fit cut
  case list.list max s => exact counted fit cut

/-- Encoded operands cut short anywhere are BadOperand: the operand with the cut is, and so is each one
after it. -/
theorem parseOperands_cut {fmt : List OperandType} {vals : List Operand}
    (fit : List.Forall₂ (fun t v => operandFits t v = true) fmt vals) {n : Nat}
    (cut : n < (vals.flatMap encodeOperand).length) :
    OnlyReason .badOperand (parseOperands fmt ((vals.flatMap encodeOperand).take n)).2 := by
  induction fit generalizing n with
  | nil => simp at cut
  | @cons t v ts vs h _ ih =>
    rw [List.flatMap_cons, List.length_append] at cut
    rw [List.flatMap_cons, List.take_append]
    by_cases inside : n < (encodeOperand v).length
    · obtain ⟨rest, reasons⟩ := parseOperand_cut h inside
      rw [Nat.sub_eq_zero_of_le inside.le, List.take_zero, List.append_nil]
      simpa [OnlyReason, parseOperands, rest, reasons] using parseOperands_exhausted ts
    · rw [List.take_of_length_le (by omega)]
      simpa [parseOperands, parseOperand_encodeOperand h] using
        ih (n := n - (encodeOperand v).length) (by omega)

/-- A request cut short after its opcode byte is BadOperand. -/
theorem decodeRequest_cut {p : Params} {i : Instr} (wf : i.wellFormed p = true) {n : Nat}
    (opcode : 1 ≤ n) (cut : n < (encode i).length) :
    decodeRequest p ((encode i).take n) = .error (.format .badOperand) := by
  obtain ⟨fmt, row, -, fit⟩ := opcodeRow i p
  obtain ⟨m, rfl⟩ := Nat.exists_eq_add_of_le' opcode
  exact decodeRequest_of_onlyReason row (parseOperands_cut (fit wf) (Nat.lt_of_succ_lt_succ cut))

/-! ### Lengths and counts -/

/-- The defects of a length or count byte in front of the bytes it announces (R74). -/
def countReasons (max : Nat) (tooLong : FormatReason) (s : Bytes) : List FormatReason :=
  if max < s.length then [tooLong] else []

/-- A string within its bounds has no defect. -/
theorem countReasons_of_fits {max : Nat} {s : Bytes} (h : fits max s = true) (e : FormatReason) :
    countReasons max e s = [] := by
  simp only [fits, Bool.and_eq_true, decide_eq_true_eq] at h
  exact if_neg (by omega)

/-- A string above its maximum has the one defect of its type. -/
theorem countReasons_of_lt {max : Nat} {s : Bytes} (h : max < s.length) (e : FormatReason) :
    countReasons max e s = [e] := if_pos h

/-- A string that fits is no longer than a length byte can say. -/
theorem length_le_of_fits {max : Nat} {s : Bytes} (h : fits max s = true) : s.length ≤ 255 := by
  simp only [fits, Bool.and_eq_true, decide_eq_true_eq] at h
  exact h.2

/-- Bytes with their length in front are taken whole; only the maximum can be exceeded. -/
theorem parseCounted_encoded (max : Nat) (tooLong : FormatReason) {s : Bytes} (short : s.length ≤ 255)
    (rest : Bytes) : parseCounted max tooLong (BitVec.ofNat 8 s.length :: (s ++ rest)) =
      ⟨s, rest, countReasons max tooLong s⟩ := by
  have byte : s.length % 256 = s.length := Nat.mod_eq_of_lt (by omega)
  simp [parseCounted, countReasons, byte]

/-- A bool byte in front of other operands adds its own defects and nothing else. -/
theorem parseOperands_bool (ts : List OperandType) (b : Byte) (rest : Bytes) :
    (parseOperands (.bool :: ts) (b :: rest)).2 = boolReasons b ++ (parseOperands ts rest).2 := by
  rw [parseOperands, parseOperand_bool]

/-- A head list in front of other operands adds its own defects and nothing else. -/
theorem parseOperands_list (ts : List OperandType) (max : Nat) {l : Bytes} (short : l.length ≤ 255)
    (rest : Bytes) : (parseOperands (.list max :: ts) (BitVec.ofNat 8 l.length :: (l ++ rest))).2 =
      countReasons max .tooManyHeads l ++ (parseOperands ts rest).2 := by
  simp [parseOperands, parseOperand, parseCounted_encoded _ _ short]

/-- A string that ends a request adds its own defects and nothing else. -/
theorem parseOperands_str (max : Nat) {s : Bytes} (short : s.length ≤ 255) :
    (parseOperands [.str max] (BitVec.ofNat 8 s.length :: s)).2 = countReasons max .badLength s := by
  have taken := parseCounted_encoded max .badLength short []
  rw [List.append_nil] at taken
  simp [parseOperands, parseOperand, taken]

/-! ### The operations with such operands -/

/-- A request of one string above its maximum is BadLength. -/
theorem decodeRequest_str_tooLong {p : Params} {i : Instr} {max : Nat} {s : Bytes}
    (operands : i.operands = [.str s]) (row : operandFormat p i.opcode = some [.str max])
    (long : max < s.length) (short : s.length ≤ 255) :
    decodeRequest p (encode i) = .error (.format .badLength) := by
  have bytes : encode i = i.opcode :: BitVec.ofNat 8 s.length :: s := by
    simp [encode, operands, encodeOperand]
  rw [bytes]
  refine decodeRequest_of_onlyReason row ?_
  rw [parseOperands_str max short, countReasons_of_lt long]
  exact onlyReason_singleton _

section ReadRequests
variable {p : Params} {heads : List Byte} {h c : Byte} {range : Bytes} {r : FormatReason}

/-- A CONFIGURE_AND_READ request of any bool bytes is refused with the one reason its operands give. -/
theorem decodeRequest_configureAndRead (shortHeads : heads.length ≤ 255)
    (shortRange : range.length ≤ 255)
    (only : OnlyReason r (countReasons p.maxHeads .tooManyHeads heads ++ (boolReasons h ++
      (boolReasons c ++ countReasons p.maxRangeLen .badLength range)))) :
    decodeRequest p (0x11 :: BitVec.ofNat 8 heads.length ::
      (heads ++ h :: c :: BitVec.ofNat 8 range.length :: range)) = .error (.format r) := by
  refine decodeRequest_of_onlyReason (opcode := 0x11) rfl ?_
  rwa [parseOperands_list _ _ shortHeads, parseOperands_bool, parseOperands_bool,
    parseOperands_str _ shortRange]

/-- A PACK_READ_PARAM request of any bool bytes is refused with the one reason its operands give. -/
theorem decodeRequest_packReadParam (shortRange : range.length ≤ 255)
    (only : OnlyReason r (boolReasons h ++ (boolReasons c ++
      countReasons p.maxRangeLen .badLength range))) :
    decodeRequest p (0x27 :: h :: c :: BitVec.ofNat 8 range.length :: range) = .error (.format r) := by
  refine decodeRequest_of_onlyReason (opcode := 0x27) rfl ?_
  rwa [parseOperands_bool, parseOperands_bool, parseOperands_str _ shortRange]

/-- The defects of two bool bytes, one of them bad, are BadOperand alone. -/
theorem onlyReason_boolReasons (bad : (h ≠ 0x00 ∧ h ≠ 0x01) ∨ (c ≠ 0x00 ∧ c ≠ 0x01)) :
    OnlyReason .badOperand (boolReasons h ++ boolReasons c) := by
  constructor
  · rw [Ne, List.append_eq_nil_iff, boolReasons_eq_nil, boolReasons_eq_nil]
    tauto
  · intro x hx
    exact (List.mem_append.mp hx).elim eq_badOperand_of_mem_boolReasons eq_badOperand_of_mem_boolReasons

end ReadRequests

/-- The bytes of a CONFIGURE_AND_READ request (R76). -/
theorem encode_configureAndRead (heads : List Byte) (hold ccf : Bool) (range : Bytes) :
    encode (.configureAndRead heads hold ccf range) = 0x11 :: BitVec.ofNat 8 heads.length ::
      (heads ++ (if hold then 0x01 else 0x00) :: (if ccf then 0x01 else 0x00) ::
        BitVec.ofNat 8 range.length :: range) := by
  simp [encode, Instr.opcode, Instr.operands, encodeOperand]

/-- The bytes of a PACK_READ_PARAM request (R76). -/
theorem encode_packReadParam (hold ccf : Bool) (range : Bytes) :
    encode (.packReadParam hold ccf range) = 0x27 :: (if hold then 0x01 else 0x00) ::
      (if ccf then 0x01 else 0x00) :: BitVec.ofNat 8 range.length :: range := by
  simp [encode, Instr.opcode, Instr.operands, encodeOperand]

/-- Settles O42: in each clause the operands show one reason alone, which is the one reported. -/
theorem requestFormatIsChecked : Obligations.RequestFormatIsChecked := by
  intro p
  refine ⟨fun i b more wf => decodeRequest_leftover wf b more,
    fun i n wf opcode cut => decodeRequest_cut wf opcode cut, ?_, ?_, ?_, ?_, ?_, ?_, ?_⟩
  · intro b h0 h1
    refine decodeRequest_of_onlyReason (opcode := 0x12) rfl ?_
    rw [parseOperands_bool, boolReasons_of_bad h0 h1]
    exact onlyReason_singleton _
  · intro heads h c range fitHeads fitRange bad
    rw [List.append_assoc, List.append_assoc]
    refine decodeRequest_configureAndRead (length_le_of_fits fitHeads) (length_le_of_fits fitRange) ?_
    simpa [countReasons_of_fits fitHeads, countReasons_of_fits fitRange] using
      onlyReason_boolReasons bad
  · intro h c range fitRange bad
    refine decodeRequest_packReadParam (length_le_of_fits fitRange) ?_
    simpa [countReasons_of_fits fitRange] using onlyReason_boolReasons bad
  · intro heads hold ccf range long short fitRange
    rw [encode_configureAndRead]
    refine decodeRequest_configureAndRead short (length_le_of_fits fitRange) ?_
    rw [boolReasons_encoded, boolReasons_encoded, countReasons_of_lt long,
      countReasons_of_fits fitRange]
    exact onlyReason_singleton _
  · intro range long short
    refine ⟨decodeRequest_str_tooLong rfl rfl long short, fun hold ccf => ⟨?_, fun heads fitHeads => ?_⟩⟩
    · rw [encode_packReadParam]
      refine decodeRequest_packReadParam short ?_
      rw [boolReasons_encoded, boolReasons_encoded, countReasons_of_lt long]
      exact onlyReason_singleton _
    · rw [encode_configureAndRead]
      refine decodeRequest_configureAndRead (length_le_of_fits fitHeads) short ?_
      rw [boolReasons_encoded, boolReasons_encoded, countReasons_of_fits fitHeads,
        countReasons_of_lt long]
      exact onlyReason_singleton _
  · intro span long short
    exact decodeRequest_str_tooLong rfl rfl long short
  · intro frame long short
    exact ⟨decodeRequest_str_tooLong rfl rfl long short, decodeRequest_str_tooLong rfl rfl long short⟩

end Sys2Proof.Machine
end

section
/-! SUPPORT. The rest of 30_encoding.md: the short frame's layout (R62, R63), requests that do not decode
(R74, R78) and the pseudo-operations (R83). -/

namespace Sys2Proof.Machine

/-- Settles O9: the encoder's lengths fix every position of the frame. -/
theorem encodedFrameHasTheShortLayout : Obligations.EncodedFrameHasTheShortLayout := by
  intro head command parameter f encoded
  obtain ⟨four, -, two, -, rfl⟩ := encodeShort_eq_ok encoded
  obtain ⟨c₀, c₁, rfl⟩ := List.length_eq_two.mp two
  match parameter, four with
  | [p₀, p₁, p₂, p₃], _ => exact ⟨rfl, rfl, rfl, rfl, rfl, rfl, rfl, rfl, rfl⟩

/-- A request that does not decode is taken off the port and answered with its error; nothing else is
written. -/
theorem step_of_undecodable {s : State} {request : Bytes} {requests : List Bytes} {e : Raised}
    (input : s.resetInput = false) (idle : s.phase = .idle) (port : s.hostPort = request :: requests)
    (undecodable : decodeRequest s.params request = .error e) :
    step s = .next ({ s with hostPort := requests }.answered (.err e.kind (e.info 0 noHead))) := by
  have taken : s.takeRequest = some (request, { s with hostPort := requests }) :=
    State.takeRequest_eq_some.mpr ⟨requests, port, rfl⟩
  simp only [step, input, Bool.false_eq_true, if_false, idle, taken, undecodable,
    State.rejectRequest_eq_answered undecodable]

/-- A reserved opcode has no row in R76 (R78). -/
theorem operandFormat_reserved (p : Params) {opcode : Byte}
    (reserved : opcode.toNat = 0x00 ∨ (0x04 ≤ opcode.toNat ∧ opcode.toNat ≤ 0x0F) ∨
      (0x14 ≤ opcode.toNat ∧ opcode.toNat ≤ 0x1F) ∨ 0x28 ≤ opcode.toNat) :
    operandFormat p opcode = none := by
  unfold operandFormat
  split
  case h_16 => rfl
  all_goals omega

/-- Settles O40: a reserved opcode is refused before any operand byte is read. -/
theorem reservedOpcodesAreIllegal : Obligations.ReservedOpcodesAreIllegal := by
  refine ⟨rfl, fun s opcode operands requests input idle port reserved => ?_⟩
  have illegal : decodeRequest s.params (opcode :: operands) = .error .illegalOp := by
    simp [decodeRequest, operandFormat_reserved _ reserved]
  exact step_of_undecodable input idle port illegal

/-- Settles O41: such a request is answered before `exec` could ask whether it is legal. -/
theorem malformedRequestsAreTurnedAway : Obligations.MalformedRequestsAreTurnedAway :=
  fun _ _ _ _ input idle port undecodable => step_of_undecodable input idle port undecodable

/-- Settles O60: the expansions are the definition's rows, and the script looks at the outcome of its
first request. -/
theorem pseudoOperationsExpandAndStopAtErr : Obligations.PseudoOperationsExpandAndStopAtErr := by
  refine ⟨rfl, fun _ _ => rfl, rfl, rfl, rfl, ?stops, ?continues⟩
  case stops =>
    intro fuel i more s t kind info run err
    simp [runScript, run, err]
  case continues =>
    intro fuel i more s t r run ok
    simp [runScript, run, ok]

end Sys2Proof.Machine
end

section
/-! SUPPORT. The Frame Codec's helpers (40_frame_codec.md R90 to R96): substrings and single bytes of a frame,
the digit fields, the BCC, and `decodeFrame`, the checks that both decoders share: `decodeShort_eq` and
`decodeLong_eq` tie it to the model's decoders. -/

namespace Sys2Proof.Machine

/-! ### Bytes and substrings of a frame -/

/-- At an index inside the frame, both notations for a byte say the same. -/
theorem getD_eq_iff {f : Bytes} {i : Nat} (inside : i < f.length) {c : Byte} :
    f.getD i 0 = c ↔ f[i]? = some c := by
  simp [List.getD_eq_getElem?_getD, List.getElem?_eq_getElem inside]

/-- The two bytes of a field of length 2. -/
theorem getD_of_slice_pair {f : Bytes} {i : Nat} {a b : Byte} (field : slice f i (i + 1) = [a, b]) :
    f.getD i 0 = a ∧ f.getD (i + 1) 0 = b := by
  have byte : ∀ k < 2, f[i + k]? = [a, b][k]? := by
    intro k hk
    have two : i + 1 + 1 - i = 2 := by omega
    rw [← field, slice, two, List.getElem?_take_of_lt hk, List.getElem?_drop]
  have first : f[i]? = some a := byte 0 (by omega)
  have second : f[i + 1]? = some b := byte 1 (by omega)
  simp [List.getD_eq_getElem?_getD, first, second]

/-- A substring inside the frame has the length its indexes say. -/
theorem length_slice {f : Bytes} {i j : Nat} (inside : j < f.length) :
    (slice f i j).length = j + 1 - i := by
  simp only [slice, List.length_take, List.length_drop]
  omega

/-- Another byte does not see a changed one. -/
theorem getD_set_of_ne {f : Bytes} {i k : Nat} (other : i ≠ k) (b : Byte) :
    (f.set i b).getD k 0 = f.getD k 0 := by
  simp [List.getD_eq_getElem?_getD, List.getElem?_set_ne other]

/-- A substring does not see a byte changed behind it. -/
theorem slice_set_of_lt {f : Bytes} {i j k : Nat} (behind : j < k) (b : Byte) :
    slice (f.set k b) i j = slice f i j := by
  unfold slice
  rw [List.drop_set]
  split_ifs with before
  · rfl
  · exact List.take_set_of_le (by omega)

/-- A byte changed inside a substring is changed there. -/
theorem slice_set_of_le {f : Bytes} {i j k : Nat} (start : i ≤ k) (b : Byte) :
    slice (f.set k b) i j = (slice f i j).set (k - i) b := by
  rw [slice, List.drop_set, if_neg (by omega), List.take_set, slice]

/-- A byte inside a substring, by its index in the frame. -/
theorem getElem?_slice {f : Bytes} {i j k : Nat} (lo : i ≤ k) (hi : k ≤ j) :
    (slice f i j)[k - i]? = f[k]? := by
  rw [slice, List.getElem?_take_of_lt (by omega), List.getElem?_drop, Nat.add_sub_cancel' lo]

/-! ### Digit fields -/

/-- The class HEXDIGIT of R59 with its values. -/
theorem hexval?_val (b : Byte) : (hexval? b).map (·.val) =
    if 0x30 ≤ b.toNat ∧ b.toNat ≤ 0x39 then some (b.toNat - 0x30)
    else if 0x41 ≤ b.toNat ∧ b.toNat ≤ 0x46 then some (b.toNat - 0x37)
    else if 0x61 ≤ b.toNat ∧ b.toNat ≤ 0x66 then some (b.toNat - 0x57) else none := by
  unfold hexval?
  split_ifs <;> rfl

/-- The class DIGIT of R59 with its values. -/
theorem digit?_val (b : Byte) : (digit? b).map (·.val) =
    if 0x30 ≤ b.toNat ∧ b.toNat ≤ 0x39 then some (b.toNat - 0x30) else none := by
  unfold digit?
  split_ifs <;> rfl

/-- A written hexadecimal digit is read back. -/
theorem hexval?_hexByte : ∀ d : Fin 16, hexval? (hexByte d) = some d := by decide

/-- A written decimal digit is read back. -/
theorem digit?_digitByte : ∀ d : Fin 10, digit? (digitByte d) = some d := by decide

/-- A nibble is written as its character of the lowercase hexadecimal alphabet (R12). -/
theorem hexByte_eq_getD : ∀ d : Fin 16, hexByte d =
    ([0x30, 0x31, 0x32, 0x33, 0x34, 0x35, 0x36, 0x37, 0x38, 0x39,
      0x61, 0x62, 0x63, 0x64, 0x65, 0x66] : Bytes).getD d 0 := by decide

/-- The two digits of a byte are its nibbles, high nibble first (R12). -/
theorem hex2_eq (v : Byte) : ∃ hi lo : Fin 16, hi.val = v.toNat / 16 ∧ lo.val = v.toNat % 16 ∧
    hex2 v = [hexByte hi, hexByte lo] := by
  have byte := v.isLt
  exact ⟨⟨v.toNat / 16, by omega⟩, ⟨v.toNat % 16, by omega⟩, rfl, rfl, rfl⟩

/-- Two decimal digits are a head (R60). -/
theorem decodeHead_of_digits {a b : Byte} {x y : Fin 10} (ha : digit? a = some x)
    (hb : digit? b = some y) : ∃ h : Fin 100, h.val = 10 * x.val + y.val ∧ decodeHead a b = some h := by
  refine ⟨⟨10 * x.val + y.val, by omega⟩, rfl, ?_⟩
  simp [decodeHead, ha, hb]

/-- No other two bytes are a head (R60). -/
theorem decodeHead_of_no_digit {a b : Byte} (h : digit? a = none ∨ digit? b = none) :
    decodeHead a b = none := by
  unfold decodeHead
  split
  · rename_i ha hb; simp [ha, hb] at h
  · rfl

/-! ### The BCC -/

/-- The XOR of a span that is not empty may start at its first byte. -/
theorem bcc_cons_eq_foldl (b : Byte) (span : Bytes) : bcc (b :: span) = span.foldl (· ^^^ ·) b := by
  simp [bcc]

/-- Starting at any byte takes that byte in by XOR. -/
theorem foldl_xor (b : Byte) (span : Bytes) : span.foldl (· ^^^ ·) b = b ^^^ bcc span := by
  induction span generalizing b with
  | nil => simp [bcc]
  | cons x xs ih => rw [List.foldl_cons, ih, bcc_cons_eq_foldl, ih, BitVec.xor_assoc]

/-- The BCC of a span takes its first byte in by XOR (R90). -/
theorem bcc_cons (b : Byte) (span : Bytes) : bcc (b :: span) = b ^^^ bcc span :=
  (bcc_cons_eq_foldl b span).trans (foldl_xor b span)

/-- Changing one byte of a span changes its BCC (R101). -/
theorem bcc_set_ne {span : Bytes} {k : Nat} {b : Byte} (inside : k < span.length)
    (new : span[k]? ≠ some b) : bcc (span.set k b) ≠ bcc span := by
  induction span generalizing k with
  | nil => cases inside
  | cons x xs ih =>
    cases k with
    | zero =>
      rw [List.set_cons_zero, bcc_cons, bcc_cons, Ne, BitVec.xor_left_inj]
      rintro rfl
      exact new rfl
    | succ k =>
      rw [List.set_cons_succ, bcc_cons, bcc_cons, Ne, BitVec.xor_right_inj]
      exact ih (Nat.lt_of_succ_lt_succ inside) new

/-- What the BCC check of R95 asks for. -/
theorem checkBcc_eq_true {span : Bytes} {a b : Byte} : checkBcc span a b = true ↔
    ∃ x y : Fin 16, hexval? a = some x ∧ hexval? b = some y ∧
      16 * x.val + y.val = (bcc span).toNat := by
  unfold checkBcc
  split
  · rename_i x y ha hb; simp [ha, hb]
  · rename_i no; simpa using fun x hx y hy => (no x y hx hy).elim

/-- Beside a field that passes the check, another one passes exactly where it spells the same two
digits (R102). -/
theorem checkBcc_iff_same_digits {span : Bytes} {a₀ b₀ : Byte} (passes : checkBcc span a₀ b₀ = true)
    {a b : Byte} : checkBcc span a b = true ↔
      (hexval? a).isSome ∧ (hexval? b).isSome ∧
        (hexval? a).map (·.val) = (hexval? a₀).map (·.val) ∧
        (hexval? b).map (·.val) = (hexval? b₀).map (·.val) := by
  obtain ⟨x₀, y₀, ha₀, hb₀, value₀⟩ := checkBcc_eq_true.mp passes
  simp only [checkBcc_eq_true, ha₀, hb₀, Option.map_some, Option.map_eq_some_iff]
  constructor
  · rintro ⟨x, y, ha, hb, value⟩
    exact ⟨by simp [ha], by simp [hb], ⟨x, ha, by omega⟩, ⟨y, hb, by omega⟩⟩
  · rintro ⟨-, -, ⟨x, ha, hx⟩, ⟨y, hb, hy⟩⟩
    exact ⟨x, y, ha, hb, by omega⟩

/-! ### The checks that both decoders share -/

/-- The four framing bytes of a frame whose ETX stands at `etx` (R62, R64). -/
def Framed (etx : Nat) (f : Bytes) : Prop :=
  f[0]? = some 0x02 ∧ f[etx]? = some 0x03 ∧ f[etx + 3]? = some 0x0D ∧ f[etx + 4]? = some 0x0A

/-- The BCC field of such a frame spells the BCC of its span (R95). -/
def BccChecked (etx : Nat) (f : Bytes) : Prop :=
  ∃ x y : Fin 16, hexval? (f.getD (etx + 1) 0) = some x ∧ hexval? (f.getD (etx + 2) 0) = some y ∧
    16 * x.val + y.val = (bcc (slice f 1 etx)).toNat

/-- A decoder of either format: length, framing and BCC, in this order, before any field is read (R99). -/
def decodeFrame {α : Type} (p : Params) (etx : Nat) (fields : Bytes → Except Raised α) (f : Bytes) :
    Except Raised α :=
  if f.length ≠ etx + 5 then .error (.format .badLength)
  else if badFraming f etx (etx + 3) && p.checkFraming then .error (.format .badFraming)
  else if !checkBcc (slice f 1 etx) (f.getD (etx + 1) 0) (f.getD (etx + 2) 0) then .error .checksum
  else fields f

/-- The head field of either format, read after the shared checks (R60, R99). -/
def headField (f : Bytes) : Except Raised (Fin 100) :=
  (decodeHead (f.getD 1 0) (f.getD 2 0)).elim (.error (.format .nonDigitHead)) .ok

/-- The fields of a short frame (R94). -/
def shortFields (f : Bytes) : Except Raised ShortFields := do
  let head ← headField f
  return { head := head, command := slice f 3 4, parameter := slice f 5 8 }

/-- The fields of a long frame (R98). -/
def longFields (f : Bytes) : Except Raised LongFields := do
  let head ← headField f
  let d1 ← decodeMeasurement (slice f 9 14)
  let d2 ← decodeMeasurement (slice f 15 20)
  let d3 ← decodeMeasurement (slice f 21 26)
  return { head := head, command := slice f 3 4, status := slice f 5 8, d1 := d1, d2 := d2, d3 := d3 }

/-- DECODE_SHORT's function is the shared checks before the short fields. -/
theorem decodeShort_eq (p : Params) (f : Bytes) : decodeShort p f = decodeFrame p 9 shortFields f := by
  unfold decodeShort decodeFrame shortFields headField
  split_ifs
  · rfl
  · rfl
  · rfl
  · cases decodeHead (f.getD 1 0) (f.getD 2 0) <;> rfl

/-- DECODE_LONG's function is the shared checks before the long fields. -/
theorem decodeLong_eq (p : Params) (f : Bytes) : decodeLong p f = decodeFrame p 27 longFields f := by
  unfold decodeLong decodeFrame longFields headField
  split_ifs
  · rfl
  · rfl
  · rfl
  · cases decodeHead (f.getD 1 0) (f.getD 2 0) with
    | none => rfl
    | some head =>
      cases decodeMeasurement (slice f 9 14) with
      | error e => rfl
      | ok d1 =>
        cases decodeMeasurement (slice f 15 20) with
        | error e => rfl
        | ok d2 => cases decodeMeasurement (slice f 21 26) <;> rfl

section DecodeFrame
variable {α : Type} {p : Params} {etx : Nat} {fields : Bytes → Except Raised α} {f : Bytes}

/-- In a frame of the right length, the framing check is on the four framing bytes. -/
theorem badFraming_eq_false (len : f.length = etx + 5) :
    badFraming f etx (etx + 3) = false ↔ Framed etx f := by
  simp only [badFraming, Framed, Bool.not_eq_false', Bool.and_eq_true, decide_eq_true_eq, and_assoc,
    getD_eq_iff (f := f) (i := 0) (by omega), getD_eq_iff (f := f) (i := etx) (by omega),
    getD_eq_iff (f := f) (i := etx + 3) (by omega), getD_eq_iff (f := f) (i := etx + 3 + 1) (by omega)]
  rfl

/-- A frame of another length is refused first. -/
theorem decodeFrame_of_length (wrong : f.length ≠ etx + 5) :
    decodeFrame p etx fields f = .error (.format .badLength) := if_pos wrong

/-- Wrong framing is refused next, where CHECK_FRAMING asks. -/
theorem decodeFrame_of_not_framed (len : f.length = etx + 5) (asked : p.checkFraming = true)
    (wrong : ¬ Framed etx f) : decodeFrame p etx fields f = .error (.format .badFraming) := by
  rw [← badFraming_eq_false len, Bool.not_eq_false] at wrong
  simp [decodeFrame, len, asked, wrong]

/-- Behind length and framing, the BCC field decides between ChecksumError and the fields. -/
theorem decodeFrame_of_framed (len : f.length = etx + 5)
    (framed : p.checkFraming = false ∨ Framed etx f) : decodeFrame p etx fields f =
      if checkBcc (slice f 1 etx) (f.getD (etx + 1) 0) (f.getD (etx + 2) 0) = true then fields f
      else .error .checksum := by
  have pass : (badFraming f etx (etx + 3) && p.checkFraming) = false := by
    rw [Bool.and_eq_false_iff, badFraming_eq_false len]
    exact framed.symm
  unfold decodeFrame
  rw [if_neg (not_not.mpr len), pass, if_neg Bool.false_ne_true]
  cases checkBcc (slice f 1 etx) (f.getD (etx + 1) 0) (f.getD (etx + 2) 0) <;> rfl

/-- A BCC field that does not spell the BCC is refused. -/
theorem decodeFrame_of_not_checked (len : f.length = etx + 5)
    (framed : p.checkFraming = false ∨ Framed etx f) (wrong : ¬ BccChecked etx f) :
    decodeFrame p etx fields f = .error .checksum := by
  rw [decodeFrame_of_framed len framed, if_neg (mt checkBcc_eq_true.mp wrong)]

/-- After all three checks the fields are read. -/
theorem decodeFrame_of_checked (len : f.length = etx + 5)
    (framed : p.checkFraming = false ∨ Framed etx f) (checked : BccChecked etx f) :
    decodeFrame p etx fields f = fields f := by
  rw [decodeFrame_of_framed len framed, if_pos (checkBcc_eq_true.mpr checked)]

/-- A frame that decodes has passed the three checks. -/
theorem decodeFrame_eq_ok {r : α} (decoded : decodeFrame p etx fields f = .ok r) :
    f.length = etx + 5 ∧ (p.checkFraming = false ∨ Framed etx f) ∧ BccChecked etx f ∧
      fields f = .ok r := by
  by_cases len : f.length = etx + 5
  · by_cases framed : p.checkFraming = false ∨ Framed etx f
    · by_cases checked : BccChecked etx f
      · exact ⟨len, framed, checked, (decodeFrame_of_checked len framed checked).symm.trans decoded⟩
      · cases (decodeFrame_of_not_checked len framed checked).symm.trans decoded
    · obtain ⟨asked, wrong⟩ := not_or.mp framed
      cases (decodeFrame_of_not_framed len (Bool.not_eq_false _ ▸ asked) wrong).symm.trans decoded
  · cases (decodeFrame_of_length len).symm.trans decoded

end DecodeFrame

/-! ### Reading the fields -/

section Fields
variable {f : Bytes}

/-- Two decimal digits are the head. -/
theorem headField_of_digits {a b : Fin 10} (ha : digit? (f.getD 1 0) = some a)
    (hb : digit? (f.getD 2 0) = some b) :
    ∃ h : Fin 100, h.val = 10 * a.val + b.val ∧ headField f = .ok h := by
  obtain ⟨h, value, decoded⟩ := decodeHead_of_digits ha hb
  exact ⟨h, value, by rw [headField, decoded]; rfl⟩

/-- Any other head field is NonDigitHead. -/
theorem headField_of_no_digit (h : digit? (f.getD 1 0) = none ∨ digit? (f.getD 2 0) = none) :
    headField f = .error (.format .nonDigitHead) := by
  rw [headField, decodeHead_of_no_digit h]; rfl

/-- A short frame's fields are its head and two substrings. -/
theorem shortFields_of_head {h : Fin 100} (head : headField f = .ok h) :
    shortFields f = .ok ⟨h, slice f 3 4, slice f 5 8⟩ := by
  rw [shortFields, head]; rfl

/-- Without a head there are no short fields. -/
theorem shortFields_of_no_head {e : Raised} (head : headField f = .error e) :
    shortFields f = .error e := by
  rw [shortFields, head]; rfl

/-- Without a head there are no long fields. -/
theorem longFields_of_no_head {e : Raised} (head : headField f = .error e) :
    longFields f = .error e := by
  rw [longFields, head]; rfl

/-- A long frame's fields are its head, two substrings and three readings. -/
theorem longFields_of_readings {h : Fin 100} {d1 d2 d3 : Reading} (head : headField f = .ok h)
    (h1 : decodeMeasurement (slice f 9 14) = .ok d1) (h2 : decodeMeasurement (slice f 15 20) = .ok d2)
    (h3 : decodeMeasurement (slice f 21 26) = .ok d3) :
    longFields f = .ok ⟨h, slice f 3 4, slice f 5 8, d1, d2, d3⟩ := by
  rw [longFields, head, h1, h2, h3]; rfl

/-- A measurement field of the right length fails in its digits only (R116). -/
theorem decodeMeasurement_error_of_length {m : Bytes} {e : Raised} (six : m.length = 6)
    (h : decodeMeasurement m = .error e) : e = .format .nonDigitMeasurement := by
  match m, six with
  | [sign, a, b, c, d, x], _ =>
    unfold decodeMeasurement at h
    dsimp only at h
    split_ifs at h
    split at h <;> cases h
    rfl

/-- A measurement field that does not decode is NonDigitMeasurement, whichever of the three it is. -/
theorem longFields_of_bad_measurement {h : Fin 100} (len : f.length = 32) (head : headField f = .ok h)
    (bad : ∃ m ∈ [slice f 9 14, slice f 15 20, slice f 21 26], ∃ e, decodeMeasurement m = .error e) :
    longFields f = .error (.format .nonDigitMeasurement) := by
  have six : ∀ i j, j + 1 - i = 6 → j < 32 → (slice f i j).length = 6 :=
    fun i j size inside => (length_slice (by omega)).trans size
  cases h1 : decodeMeasurement (slice f 9 14) with
  | error e =>
    rw [longFields, head, h1, decodeMeasurement_error_of_length (six 9 14 rfl (by omega)) h1]; rfl
  | ok d1 =>
    cases h2 : decodeMeasurement (slice f 15 20) with
    | error e =>
      rw [longFields, head, h1, h2, decodeMeasurement_error_of_length (six 15 20 rfl (by omega)) h2]; rfl
    | ok d2 =>
      cases h3 : decodeMeasurement (slice f 21 26) with
      | error e =>
        rw [longFields, head, h1, h2, h3,
          decodeMeasurement_error_of_length (six 21 26 rfl (by omega)) h3]; rfl
      | ok d3 => simp [h1, h2, h3] at bad

/-- The head field ends before the command. -/
theorem headField_set {k : Nat} (behind : 2 < k) (b : Byte) : headField (f.set k b) = headField f := by
  rw [headField, getD_set_of_ne (by omega), getD_set_of_ne (by omega), headField]

/-- The short fields end before the ETX. -/
theorem shortFields_set {k : Nat} (behind : 8 < k) (b : Byte) :
    shortFields (f.set k b) = shortFields f := by
  rw [shortFields, headField_set (by omega), slice_set_of_lt (by omega), slice_set_of_lt (by omega),
    shortFields]

/-- The long fields end before the ETX. -/
theorem longFields_set {k : Nat} (behind : 26 < k) (b : Byte) :
    longFields (f.set k b) = longFields f := by
  rw [longFields, headField_set (by omega), slice_set_of_lt (by omega), slice_set_of_lt (by omega),
    slice_set_of_lt (by omega), slice_set_of_lt (by omega), slice_set_of_lt (by omega), longFields]

end Fields

end Sys2Proof.Machine
end

section
/-! SUPPORT. The statements on 40_frame_codec.md: the round trip (R100), the codec's four operations with
their requests (R91 to R98), and what a damaged frame decodes to (R101, R102). -/

namespace Sys2Proof.Machine

/-! ### The encoder -/

section EncodeShort
variable {head : Byte} {command parameter : Bytes}

/-- The parameter's length is checked first (R92). -/
theorem encodeShort_of_parameter_length (wrong : parameter.length ≠ 4) :
    encodeShort head command parameter = .error (.format .badParamLength) := if_pos wrong

/-- The head's range is checked next. -/
theorem encodeShort_of_high_head (four : parameter.length = 4) (high : 99 < head.toNat) :
    encodeShort head command parameter = .error (.format .headOutOfRange) := by
  rw [encodeShort, if_neg (not_not.mpr four), if_pos high]

/-- The command's length is checked next. -/
theorem encodeShort_of_command_length (four : parameter.length = 4) (valid : head.toNat ≤ 99)
    (wrong : command.length ≠ 2) :
    encodeShort head command parameter = .error (.format .badCommandLength) := by
  rw [encodeShort, if_neg (not_not.mpr four), if_neg (not_lt.mpr valid), if_pos wrong]

/-- The bytes themselves are checked last. -/
theorem encodeShort_of_unprintable (four : parameter.length = 4) (valid : head.toNat ≤ 99)
    (two : command.length = 2) (bad : ∃ b ∈ command ++ parameter, b.toNat < 0x20 ∨ 0x7E < b.toNat) :
    encodeShort head command parameter = .error (.format .nonPrintable) := by
  have some_bad : ¬ (command ++ parameter).all isPrintable = true := by
    obtain ⟨b, mem, outside⟩ := bad
    intro all
    have inside := of_decide_eq_true (List.all_eq_true.mp all b mem)
    omega
  rw [encodeShort, if_neg (not_not.mpr four), if_neg (not_lt.mpr valid), if_neg (not_not.mpr two),
    if_pos some_bad]

/-- The encoder's answer where its four checks pass. -/
theorem encodeShort_of_valid (four : parameter.length = 4) (valid : head.toNat ≤ 99)
    (two : command.length = 2)
    (printable : ∀ b ∈ command ++ parameter, 0x20 ≤ b.toNat ∧ b.toNat ≤ 0x7E) :
    encodeShort head command parameter = .ok ([Chars.STX] ++
      (encodeHead head ++ command ++ parameter ++ [Chars.ETX]) ++
      hex2 (bcc (encodeHead head ++ command ++ parameter ++ [Chars.ETX])) ++ [Chars.CR, Chars.LF]) := by
  have all : (command ++ parameter).all isPrintable = true :=
    List.all_eq_true.mpr fun b hb => decide_eq_true (printable b hb)
  rw [encodeShort, if_neg (not_not.mpr four), if_neg (not_lt.mpr valid), if_neg (not_not.mpr two),
    if_neg (not_not.mpr all)]

end EncodeShort

/-- Decoding an encoded frame gives the operands back: the framing bytes and the BCC field are the ones
the checks ask for, and the head's two digits spell the head. -/
theorem decodeShort_encodeShort {head : Byte} {command parameter f : Bytes}
    (encoded : encodeShort head command parameter = .ok f) (p : Params) :
    ∃ h : Fin 100, h.val = head.toNat ∧ decodeShort p f = .ok ⟨h, command, parameter⟩ := by
  obtain ⟨len, stx, headDigits, commandField, parameterField, etx, field, cr, lf⟩ :=
    encodedFrameHasTheShortLayout head command parameter f encoded
  obtain ⟨-, valid, -⟩ := encodeShort_eq_ok encoded
  have checked : BccChecked 9 f := by
    obtain ⟨hi, lo, high, low, digits⟩ := hex2_eq (bcc (slice f 1 9))
    obtain ⟨at10, at11⟩ := getD_of_slice_pair (field.trans digits)
    exact ⟨hi, lo, by rw [at10, hexval?_hexByte], by rw [at11, hexval?_hexByte], by omega⟩
  obtain ⟨at1, at2⟩ := getD_of_slice_pair headDigits
  have tens : digit? (f.getD 1 0) = some ⟨head.toNat / 10, by omega⟩ := by
    rw [at1]; exact digit?_digitByte ⟨_, by omega⟩
  have units : digit? (f.getD 2 0) = some ⟨head.toNat % 10, by omega⟩ := by
    rw [at2]; exact digit?_digitByte ⟨_, by omega⟩
  obtain ⟨h, value, decoded⟩ := headField_of_digits tens units
  refine ⟨h, value.trans (Nat.div_add_mod _ 10), ?_⟩
  rw [decodeShort_eq, decodeFrame_of_checked len (.inr ⟨stx, etx, cr, lf⟩) checked,
    shortFields_of_head decoded, commandField, parameterField]

/-- Settles O10: a valid input is encoded, and what is encoded decodes to its operands. -/
theorem shortFrameRoundTrip : Obligations.ShortFrameRoundTrip := by
  intro p head command parameter valid two four printable
  have encoded := encodeShort_of_valid four valid two printable
  obtain ⟨h, value, decoded⟩ := decodeShort_encodeShort encoded p
  exact ⟨_, _, encoded, decoded, value, rfl, rfl⟩

/-! ### The operations and their requests -/

/-- The request of an operation with one string operand (R76). -/
theorem encode_str {i : Instr} {s : Bytes} (operands : i.operands = [.str s]) :
    encode i = i.opcode :: BitVec.ofNat 8 s.length :: s := by
  simp [encode, operands, encodeOperand]

/-- The request of such an operation decodes to it, where the string fits. -/
theorem decodeRequest_str {p : Params} {i : Instr} {s : Bytes} (operands : i.operands = [.str s])
    (wf : i.wellFormed p = true) :
    decodeRequest p (i.opcode :: BitVec.ofNat 8 s.length :: s) = .ok i :=
  encode_str operands ▸ decodeOfEncodeIsTheOperation p i wf

/-- A string within its maximum and its length byte fits. -/
theorem fits_of_le {max : Nat} {s : Bytes} (bound : s.length ≤ max) (short : s.length ≤ 255) :
    fits max s = true := by
  simp [fits, bound, short]

/-- Settles O6: the XOR may start at the first byte, and the two digits are characters of the alphabet. -/
theorem computeBccAnswersValueAndText : Obligations.ComputeBccAnswersValueAndText := by
  refine ⟨fun s => exec_computeBcc s [], fun b span s => ?answer, fun p span bound short => ?request,
    fun p span long short => ?tooLong⟩
  case answer =>
    obtain ⟨hi, lo, high, low, digits⟩ := hex2_eq (bcc (b :: span))
    rw [exec_computeBcc, computeBcc, if_neg (List.cons_ne_nil b span), digits, hexByte_eq_getD,
      hexByte_eq_getD, high, low, bcc_cons_eq_foldl]
    rfl
  case request =>
    exact decodeRequest_str (i := .computeBcc span) rfl (fits_of_le bound short)
  case tooLong =>
    exact encode_str (i := .computeBcc span) rfl ▸ decodeRequest_str_tooLong rfl rfl long short

/-- Settles O8: each clause is the encoder's first check that fails, the last one its frame. -/
theorem encodeShortChecksInOrder : Obligations.EncodeShortChecksInOrder := by
  intro head command parameter s
  have exec_of : ∀ {r : Except Raised Bytes}, encodeShort head command parameter = r →
      exec (.encodeShort head command parameter) s = .next (s.answered (outcomeOf (r.map .frame))) :=
    fun h => h ▸ exec_encodeShort s head command parameter
  refine ⟨fun shortC shortP => ?request, fun wrong => exec_of (encodeShort_of_parameter_length wrong),
    fun four high => exec_of (encodeShort_of_high_head four high),
    fun four valid wrong => exec_of (encodeShort_of_command_length four valid wrong),
    fun four valid two bad => exec_of (encodeShort_of_unprintable four valid two bad),
    fun four valid two printable => ⟨_, exec_of (encodeShort_of_valid four valid two printable), ?frame⟩⟩
  case request =>
    have wf : (Instr.encodeShort head command parameter).wellFormed s.params = true :=
      Bool.and_eq_true_iff.mpr ⟨fits_of_le shortC shortC, fits_of_le shortP shortP⟩
    simpa [encode, Instr.opcode, Instr.operands, encodeOperand] using
      decodeOfEncodeIsTheOperation s.params _ wf
  case frame => rfl

/-- Settles O11: the shared checks in their order, then the head. -/
theorem decodeShortChecksInOrder : Obligations.DecodeShortChecksInOrder := by
  refine ⟨hexval?_val, digit?_val, fun f s => ?_⟩
  have exec_of : ∀ {r : Except Raised ShortFields}, decodeFrame s.params 9 shortFields f = r →
      exec (.decodeShort f) s = .next (s.answered (outcomeOf (r.map .short))) :=
    fun h => h ▸ decodeShort_eq s.params f ▸ exec_decodeShort s f
  refine ⟨fun bound short => decodeRequest_str (i := .decodeShort f) rfl (fits_of_le bound short),
    fun wrong => exec_of (decodeFrame_of_length wrong), fun len =>
    ⟨fun asked wrong => exec_of (decodeFrame_of_not_framed len asked wrong),
      fun framed wrong => exec_of (decodeFrame_of_not_checked len framed wrong),
      fun framed checked => ?fields⟩⟩
  have read := decodeFrame_of_checked (fields := shortFields) len framed checked
  refine ⟨fun noDigit => ?noHead, fun a b ha hb => ?head⟩
  case noHead =>
    exact exec_of (read.trans (shortFields_of_no_head (headField_of_no_digit noDigit)))
  case head =>
    obtain ⟨h, value, head⟩ := headField_of_digits ha hb
    exact ⟨h, value, exec_of (read.trans (shortFields_of_head head))⟩

/-- Settles O12: the shared checks in their order, then the head, then the three measurements. -/
theorem decodeLongChecksInOrder : Obligations.DecodeLongChecksInOrder := by
  refine ⟨hexval?_val, digit?_val, fun f s => ?_⟩
  have exec_of : ∀ {r : Except Raised LongFields}, decodeFrame s.params 27 longFields f = r →
      exec (.decodeLong f) s = .next (s.answered (outcomeOf (r.map .long))) :=
    fun h => h ▸ decodeLong_eq s.params f ▸ exec_decodeLong s f
  refine ⟨fun bound short => decodeRequest_str (i := .decodeLong f) rfl (fits_of_le bound short),
    fun wrong => exec_of (decodeFrame_of_length wrong), fun len =>
    ⟨fun asked wrong => exec_of (decodeFrame_of_not_framed len asked wrong),
      fun framed wrong => exec_of (decodeFrame_of_not_checked len framed wrong),
      fun framed checked => ?fields⟩⟩
  have read := decodeFrame_of_checked (fields := longFields) len framed checked
  refine ⟨fun noDigit => ?noHead, fun a b ha hb good => ?readings, fun a b ha hb bad => ?badMeasurement⟩
  case noHead =>
    exact exec_of (read.trans (longFields_of_no_head (headField_of_no_digit noDigit)))
  case readings =>
    obtain ⟨h, value, head⟩ := headField_of_digits ha hb
    obtain ⟨d1, h1⟩ := good (slice f 9 14) (by simp)
    obtain ⟨d2, h2⟩ := good (slice f 15 20) (by simp)
    obtain ⟨d3, h3⟩ := good (slice f 21 26) (by simp)
    exact ⟨h, d1, d2, d3, value, h1, h2, h3,
      exec_of (read.trans (longFields_of_readings head h1 h2 h3))⟩
  case badMeasurement =>
    obtain ⟨h, -, head⟩ := headField_of_digits ha hb
    exact exec_of (read.trans (longFields_of_bad_measurement len head bad))

/-! ### Damaged frames -/

section Damage
variable {α : Type} {p : Params} {etx : Nat} {fields : Bytes → Except Raised α} {f : Bytes} {r : α}

/-- A changed byte at no framing position leaves the framing. -/
theorem Framed.set {k : Nat} (h : Framed etx f) (stx : k ≠ 0) (etxPlace : k ≠ etx)
    (cr : k ≠ etx + 3) (lf : k ≠ etx + 4) (b : Byte) : Framed etx (f.set k b) := by
  simpa only [Framed, List.getElem?_set_ne stx, List.getElem?_set_ne etxPlace,
    List.getElem?_set_ne cr, List.getElem?_set_ne lf] using h

/-- A field that spells the BCC of a span spells no other: with one byte of the span changed the check
fails. -/
theorem not_bccChecked_set {i : Nat} {b : Byte} (checked : BccChecked etx f) (len : etx < f.length)
    (lo : 1 ≤ i) (hi : i ≤ etx) (new : f[i]? ≠ some b) : ¬ BccChecked etx (f.set i b) := by
  rintro ⟨x', y', hx', hy', value'⟩
  obtain ⟨x, y, hx, hy, value⟩ := checked
  rw [getD_set_of_ne (by omega)] at hx' hy'
  obtain rfl : x = x' := Option.some.inj (hx.symm.trans hx')
  obtain rfl : y = y' := Option.some.inj (hy.symm.trans hy')
  rw [slice_set_of_le lo] at value'
  refine bcc_set_ne (k := i - 1) (span := slice f 1 etx) ?inside ?new
    (BitVec.eq_of_toNat_eq (value'.symm.trans value))
  case inside => rw [length_slice len]; omega
  case new => rwa [getElem?_slice lo hi]

/-- Of the bytes of a span only the ETX is examined before the BCC, and only where CHECK_FRAMING asks
(R101). -/
theorem decodeFrame_set_span (decoded : decodeFrame p etx fields f = .ok r) {i : Nat} {b : Byte}
    (new : f[i]? ≠ some b) (lo : 1 ≤ i) (hi : i ≤ etx) :
    decodeFrame p etx fields (f.set i b) =
      if p.checkFraming = true ∧ i = etx then .error (.format .badFraming) else .error .checksum := by
  obtain ⟨len, framed, checked, -⟩ := decodeFrame_eq_ok decoded
  have len' : (f.set i b).length = etx + 5 := List.length_set.trans len
  split_ifs with examined
  · obtain ⟨asked, rfl⟩ := examined
    obtain ⟨-, etxByte, -⟩ := framed.resolve_left (by simp [asked])
    refine decodeFrame_of_not_framed len' asked fun ⟨_, etxByte', _⟩ => new ?_
    rw [List.getElem?_set_self (by omega)] at etxByte'
    exact etxByte.trans etxByte'.symm
  · refine decodeFrame_of_not_checked len' ?_ (not_bccChecked_set checked (by omega) lo hi new)
    by_cases asked : p.checkFraming = true
    · exact framed.imp_right fun h => h.set (by omega) (by tauto) (by omega) (by omega) b
    · exact .inl (Bool.eq_false_of_not_eq_true asked)

/-- Another BCC field is examined by the BCC check alone; the fields of the frame do not read it
(R102). -/
theorem decodeFrame_set_field (decoded : decodeFrame p etx fields f = .ok r) (a b : Byte)
    (unread : ∀ g k c, etx < k → fields (List.set g k c) = fields g) :
    decodeFrame p etx fields ((f.set (etx + 1) a).set (etx + 2) b) =
      if (hexval? a).isSome ∧ (hexval? b).isSome ∧
         (hexval? a).map (·.val) = (hexval? (f.getD (etx + 1) 0)).map (·.val) ∧
         (hexval? b).map (·.val) = (hexval? (f.getD (etx + 2) 0)).map (·.val)
      then .ok r else .error .checksum := by
  obtain ⟨len, framed, checked, read⟩ := decodeFrame_eq_ok decoded
  have len' : ((f.set (etx + 1) a).set (etx + 2) b).length = etx + 5 := by simpa using len
  have framed' : p.checkFraming = false ∨ Framed etx ((f.set (etx + 1) a).set (etx + 2) b) :=
    framed.imp_right fun h =>
      (h.set (by omega) (by omega) (by omega) (by omega) a).set (by omega) (by omega) (by omega)
        (by omega) b
  have first : ((f.set (etx + 1) a).set (etx + 2) b).getD (etx + 1) 0 = a := by
    rw [getD_set_of_ne (by omega), getD_eq_iff (by simp [len]), List.getElem?_set_self (by omega)]
  have second : ((f.set (etx + 1) a).set (etx + 2) b).getD (etx + 2) 0 = b := by
    rw [getD_eq_iff (by simp [len]), List.getElem?_set_self (by simp [len])]
  rw [decodeFrame_of_framed len' framed', first, second, slice_set_of_lt (by omega),
    slice_set_of_lt (by omega), unread _ _ _ (by omega), unread _ _ _ (by omega), read]
  exact if_congr (checkBcc_iff_same_digits (checkBcc_eq_true.mpr checked)) rfl rfl

end Damage

/-- Settles O13: both decoders are the shared checks, which notice the changed byte. -/
theorem singleByteChangesAreDetected : Obligations.SingleByteChangesAreDetected := by
  intro p f i b new
  simp only [decodeShort_eq, decodeLong_eq]
  exact ⟨fun _ decoded lo hi => decodeFrame_set_span decoded new lo hi,
    fun _ decoded lo hi => decodeFrame_set_span decoded new lo hi⟩

/-- Settles O14: both decoders are the shared checks, of which one alone sees the BCC field. -/
theorem corruptedBccFieldIsDetected : Obligations.CorruptedBccFieldIsDetected := by
  refine ⟨hexval?_val, fun p f a b => ?_⟩
  simp only [decodeShort_eq, decodeLong_eq]
  exact ⟨fun _ decoded => decodeFrame_set_field decoded a b fun _ _ c h => shortFields_set (by omega) c,
    fun _ decoded => decodeFrame_set_field decoded a b fun _ _ c h => longFields_set (by omega) c⟩

end Sys2Proof.Machine
end

section
/-! SUPPORT. The functions of 41_classify_measure.md, each case once: the laws of the BCC (R126), the two
status tables (R111, R112), measurement fields and their exact values (R116 to R119), the grammar and the
value of a range literal (R122) and the bands (R123). -/

namespace Sys2Proof.Machine

/-! ### The laws of the BCC -/

/-- The BCC of a joined span is the XOR of the parts' BCCs. -/
theorem bcc_append (a b : Bytes) : bcc (a ++ b) = bcc a ^^^ bcc b := by
  induction a with
  | nil => simp [bcc]
  | cons x xs ih => rw [List.cons_append, bcc_cons, ih, bcc_cons, BitVec.xor_assoc]

/-- The order of the bytes does not matter to the BCC. -/
theorem bcc_perm {a b : Bytes} (same : a.Perm b) : bcc a = bcc b := by
  induction same with
  | nil => rfl
  | cons x _ ih => rw [bcc_cons, bcc_cons, ih]
  | swap x y rest => simp only [bcc_cons, ← BitVec.xor_assoc, BitVec.xor_comm x y]
  | trans _ _ ih₁ ih₂ => exact ih₁.trans ih₂

/-! ### The class DIGIT -/

/-- A byte of the class DIGIT (R59). -/
def IsDigit (b : Byte) : Prop := 0x30 ≤ b.toNat ∧ b.toNat ≤ 0x39

/-- A byte of the class has its value. -/
theorem digit?_of_isDigit {b : Byte} (h : IsDigit b) :
    ∃ d : Fin 10, d.val = b.toNat - 0x30 ∧ digit? b = some d :=
  ⟨_, rfl, dif_pos h⟩

/-- No other byte has a value. -/
theorem digit?_eq_none {b : Byte} (h : ¬ IsDigit b) : digit? b = none := dif_neg h

/-- A byte with a value is of the class. -/
theorem isDigit_of_digit? {b : Byte} {d : Fin 10} (h : digit? b = some d) : IsDigit b := by
  by_contra outside
  rw [digit?_eq_none outside] at h
  cases h

/-! ### The status tables -/

/-- The table of the error position (R111). -/
def errorTable : List (Byte × StatusError) := [(0x20, .ok), (0x37, .ok), (0x35, .overRange),
  (0x31, .powerHeadOff), (0x32, .eepromFault .one), (0x33, .eepromFault .two)]

/-- The table of the battery position (R112). -/
def batteryTable : List (Byte × Battery) :=
  [(0x30, .nominal), (0x32, .nominal), (0x31, .lowBattery), (0x33, .lowBattery)]

/-- The error position is read by its table. -/
theorem errorPosition_eq_some {e : Byte} {err : StatusError} :
    errorPosition e = some err ↔ (e, err) ∈ errorTable := by
  constructor
  · intro h
    unfold errorPosition at h
    split at h <;> cases h <;> simp_all [errorTable, BitVec.toNat_eq]
  · intro h
    simp only [errorTable, List.mem_cons, Prod.mk.injEq, List.not_mem_nil, or_false] at h
    rcases h with ⟨rfl, rfl⟩ | ⟨rfl, rfl⟩ | ⟨rfl, rfl⟩ | ⟨rfl, rfl⟩ | ⟨rfl, rfl⟩ | ⟨rfl, rfl⟩ <;> rfl

/-- The battery position is read by its table. -/
theorem batteryPosition_eq_some {b : Byte} {bat : Battery} :
    batteryPosition b = some bat ↔ (b, bat) ∈ batteryTable := by
  constructor
  · intro h
    unfold batteryPosition at h
    split at h <;> cases h <;> simp_all [batteryTable, BitVec.toNat_eq]
  · intro h
    simp only [batteryTable, List.mem_cons, Prod.mk.injEq, List.not_mem_nil, or_false] at h
    rcases h with ⟨rfl, rfl⟩ | ⟨rfl, rfl⟩ | ⟨rfl, rfl⟩ | ⟨rfl, rfl⟩ <;> rfl

/-- A status that is not four bytes long is BadLength (R110). -/
theorem classifyStatus_of_length {status : Bytes} (wrong : status.length ≠ 4) :
    classifyStatus status = .error (.format .badLength) := by
  unfold classifyStatus
  split
  · exact absurd rfl wrong
  · rfl

/-- Two values of the tables give their class, whatever stands at the positions 0 and 2 (R110, R66). -/
theorem classifyStatus_of_known {e b : Byte} {err : StatusError} {bat : Battery}
    (error : (e, err) ∈ errorTable) (battery : (b, bat) ∈ batteryTable) (x y : Byte) :
    classifyStatus [x, e, y, b] = .ok ⟨err, bat⟩ := by
  simp [classifyStatus, errorPosition_eq_some.mpr error, batteryPosition_eq_some.mpr battery]

/-- A value outside its table, at either position, is UnknownStatus (R110). -/
theorem classifyStatus_of_unknown {e b : Byte}
    (unknown : (∀ err, (e, err) ∉ errorTable) ∨ (∀ bat, (b, bat) ∉ batteryTable)) (x y : Byte) :
    classifyStatus [x, e, y, b] = .error (.format .unknownStatus) := by
  cases error : errorPosition e with
  | none => simp [classifyStatus, error]
  | some err =>
    have known := errorPosition_eq_some.mp error
    cases battery : batteryPosition b with
    | none => simp [classifyStatus, error, battery]
    | some bat =>
      exact (unknown.elim (· err known) (· bat (batteryPosition_eq_some.mp battery))).elim

/-! ### Measurement fields -/

/-- A field that is not six bytes long is BadLength (R116). -/
theorem decodeMeasurement_of_length {m : Bytes} (wrong : m.length ≠ 6) :
    decodeMeasurement m = .error (.format .badLength) := by
  unfold decodeMeasurement
  split
  · exact absurd rfl wrong
  · rfl

section SixBytes
variable {g a b c d x : Byte}

/-- A field other than `SP^6` with a byte behind the sign that is no digit is NonDigitMeasurement (R116,
R117). -/
theorem decodeMeasurement_of_no_digit (present : [g, a, b, c, d, x] ≠ spaces 6)
    (bad : ∃ y ∈ [a, b, c, d, x], ¬ IsDigit y) :
    decodeMeasurement [g, a, b, c, d, x] = .error (.format .nonDigitMeasurement) := by
  obtain ⟨y, mem, outside⟩ := bad
  simp only [decodeMeasurement, if_neg present]
  split
  · rename_i ha hb hc hd hx
    refine absurd ?_ outside
    simp only [List.mem_cons, List.not_mem_nil, or_false] at mem
    rcases mem with rfl | rfl | rfl | rfl | rfl
    exacts [isDigit_of_digit? ha, isDigit_of_digit? hb, isDigit_of_digit? hc, isDigit_of_digit? hd,
      isDigit_of_digit? hx]
  · rfl

/-- A field with five digits behind the sign is present, and only `-` negates it (R116, R118). -/
theorem decodeMeasurement_of_digits {va vb vc vd vx : Fin 10} (ha : digit? a = some va)
    (hb : digit? b = some vb) (hc : digit? c = some vc) (hd : digit? d = some vd)
    (hx : digit? x = some vx) : decodeMeasurement [g, a, b, c, d, x] =
      .ok (.present (decide (g = Chars.minus)) (mantissaOf va vb vc vd) (exponentOf vx)) := by
  have present : [g, a, b, c, d, x] ≠ spaces 6 := by
    intro blank
    obtain ⟨-, rfl, -⟩ : g = 0x20 ∧ a = 0x20 ∧ _ := by simpa [spaces, Chars.SP] using blank
    cases ha
  simp only [decodeMeasurement, if_neg present, ha, hb, hc, hd, hx]

end SixBytes

/-- The exponent of a present reading is that of an exponent digit (R67). -/
theorem exponent_of_decodeMeasurement {m : Bytes} {neg : Bool} {mantissa : Fin 10000} {exp : Int}
    (h : decodeMeasurement m = .ok (.present neg mantissa exp)) : ∃ x : Fin 10, exp = exponentOf x := by
  unfold decodeMeasurement at h
  split at h
  · split_ifs at h
    · cases h
    · split at h
      · cases h
        exact ⟨_, rfl⟩
      · cases h
  · cases h

/-- The magnitude of a reading, in units of 1/10000, is a whole number: its mantissa with as many zeros as
the exponent digit says (R119). -/
theorem value_present (neg : Bool) (mantissa : Fin 10000) (x : Fin 10) :
    (Reading.present neg mantissa (exponentOf x)).value =
      some ((if neg then -1 else 1) * ((mantissa.val * 10 ^ x.val : ℕ) : ℚ) / 10000) := by
  have power : (10 : ℚ) ^ exponentOf x = 10 ^ x.val / 10000 := by
    rw [exponentOf, zpow_sub₀ (by norm_num), zpow_natCast]
    norm_num
  rw [Reading.value, power, Option.some_inj]
  push_cast
  ring

/-- The sign does not count in the magnitude of so many units. -/
theorem abs_signed_div (neg : Bool) (n : ℕ) :
    |(if neg then -1 else 1) * (n : ℚ) / 10000| = n / 10000 := by
  cases neg <;> simp [abs_div]

/-! ### Range literals -/

/-- The grammar's `digits`: one DIGIT byte or more (R122). -/
def IsDigits (ds : Bytes) : Prop := ds ≠ [] ∧ ∀ b ∈ ds, IsDigit b

/-- The number that digits spell, most significant first, after the number of the digits before them. -/
def numberFrom (acc : Nat) (ds : Bytes) : Nat := ds.foldl (fun acc b => 10 * acc + (b.toNat - 0x30)) acc

/-- The unsigned part of a literal, by the three forms of the grammar of R122: no point, a point after the
digits, a point before all of them. -/
def SpellsUnsigned (s whole frac : Bytes) : Prop :=
  s = whole ∧ IsDigits whole ∧ frac = [] ∨
  s = whole ++ [0x2E] ++ frac ∧ IsDigits whole ∧ (frac = [] ∨ IsDigits frac) ∨
  s = [0x2E] ++ frac ∧ whole = [] ∧ IsDigits frac

/-- A literal of the grammar of R122, by its sign and its digits before and after the point. -/
def Spells (r sign whole frac : Bytes) : Prop :=
  (sign = [] ∨ sign = [0x2B] ∨ sign = [0x2D]) ∧
  (r = sign ++ whole ∧ IsDigits whole ∧ frac = [] ∨
   r = sign ++ whole ++ [0x2E] ++ frac ∧ IsDigits whole ∧ (frac = [] ∨ IsDigits frac) ∨
   r = sign ++ [0x2E] ++ frac ∧ whole = [] ∧ IsDigits frac)

/-- A literal is a sign, or none, before an unsigned literal. -/
theorem spells_iff {r sign whole frac : Bytes} : Spells r sign whole frac ↔
    (sign = [] ∨ sign = [0x2B] ∨ sign = [0x2D]) ∧
      ∃ s, r = sign ++ s ∧ SpellsUnsigned s whole frac := by
  refine and_congr_right fun _ => ⟨?_, ?_⟩
  · rintro (⟨rfl, h⟩ | ⟨rfl, h⟩ | ⟨rfl, h⟩)
    · exact ⟨_, rfl, .inl ⟨rfl, h⟩⟩
    · exact ⟨whole ++ [0x2E] ++ frac, by simp, .inr (.inl ⟨rfl, h⟩)⟩
    · exact ⟨[0x2E] ++ frac, by simp, .inr (.inr ⟨rfl, h⟩)⟩
  · rintro ⟨s, rfl, ⟨rfl, h⟩ | ⟨rfl, h⟩ | ⟨rfl, h⟩⟩
    · exact .inl ⟨rfl, h⟩
    · exact .inr (.inl ⟨by simp, h⟩)
    · exact .inr (.inr ⟨by simp, h⟩)

/-- Digits alone are read, and as the number they spell. -/
theorem digitsValue_eq_some {acc v : Nat} {ds : Bytes} :
    digitsValue acc ds = some v ↔ (∀ b ∈ ds, IsDigit b) ∧ v = numberFrom acc ds := by
  induction ds generalizing acc with
  | nil => simp [digitsValue, numberFrom, eq_comm]
  | cons b rest ih =>
    by_cases digit : IsDigit b
    · obtain ⟨d, value, read⟩ := digit?_of_isDigit digit
      simp [digitsValue, read, ih, digit, value, numberFrom]
    · simp [digitsValue, digit?_eq_none digit, digit]

/-- Zeros in place of the later digits, then those digits. -/
theorem numberFrom_eq (acc : Nat) (ds : Bytes) :
    numberFrom acc ds = acc * 10 ^ ds.length + numberFrom 0 ds := by
  induction ds generalizing acc with
  | nil => simp [numberFrom]
  | cons b rest ih =>
    have step : ∀ n, numberFrom n (b :: rest) = numberFrom (10 * n + (b.toNat - 0x30)) rest :=
      fun _ => rfl
    rw [step, ih, step 0, ih (10 * 0 + (b.toNat - 0x30)), List.length_cons]
    ring

/-- The digits of a literal as one number. -/
theorem numberFrom_append (whole frac : Bytes) : numberFrom 0 (whole ++ frac) =
    numberFrom 0 whole * 10 ^ frac.length + numberFrom 0 frac := by
  have joined : numberFrom 0 (whole ++ frac) = numberFrom (numberFrom 0 whole) frac :=
    List.foldl_append
  rw [joined, numberFrom_eq]

/-- The point and the signs are no digits. -/
theorem not_isDigit_mark {b : Byte} (mark : b = Chars.dot ∨ b = Chars.plus ∨ b = Chars.minus) :
    ¬ IsDigit b := by
  unfold IsDigit
  rcases mark with rfl | rfl | rfl <;> decide

/-- No point stands among digits. -/
theorem dot_not_mem_of_digits {ds : Bytes} (h : ∀ b ∈ ds, IsDigit b) : Chars.dot ∉ ds :=
  fun mem => not_isDigit_mark (.inl rfl) (h _ mem)

/-- Where there is no point, all bytes stand before it. -/
theorem splitPoint_of_no_dot {s : Bytes} (h : Chars.dot ∉ s) : splitPoint s = (s, none) := by
  induction s with
  | nil => rfl
  | cons b rest ih =>
    obtain ⟨other, rest_free⟩ := not_or.mp (mt List.mem_cons.mpr h)
    simp [splitPoint, Ne.symm other, ih rest_free]

/-- The first point is the one that splits. -/
theorem splitPoint_of_dot {whole : Bytes} (h : Chars.dot ∉ whole) (frac : Bytes) :
    splitPoint (whole ++ Chars.dot :: frac) = (whole, some frac) := by
  induction whole with
  | nil => simp [splitPoint]
  | cons b rest ih =>
    obtain ⟨other, rest_free⟩ := not_or.mp (mt List.mem_cons.mpr h)
    simp [splitPoint, Ne.symm other, ih rest_free]

/-- What is split joins to the whole again. -/
theorem splitPoint_join (s : Bytes) :
    s = (splitPoint s).1 ++ ((splitPoint s).2.elim [] (Chars.dot :: ·)) := by
  induction s with
  | nil => rfl
  | cons b rest ih =>
    by_cases point : b = Chars.dot
    · simp [splitPoint, point]
    · simp [splitPoint, point, ← ih]

/-- The digits of a literal with a point: some before it or some after it. -/
theorem parseUnsigned_of_point {whole frac : Bytes} (digits : ∀ b ∈ whole ++ frac, IsDigit b)
    (nonempty : ¬ (whole = [] ∧ frac = [])) (neg : Bool) :
    parseUnsigned neg (whole ++ Chars.dot :: frac) =
      some ⟨neg, numberFrom 0 (whole ++ frac), frac.length⟩ := by
  have free := dot_not_mem_of_digits fun b hb => digits b (List.mem_append_left frac hb)
  simp only [parseUnsigned, splitPoint_of_dot free, if_neg nonempty,
    digitsValue_eq_some.mpr ⟨digits, rfl⟩]

/-- An unsigned literal is read, and its digits are those it spells. -/
theorem parseUnsigned_of_spells {s whole frac : Bytes} (h : SpellsUnsigned s whole frac) (neg : Bool) :
    parseUnsigned neg s = some ⟨neg, numberFrom 0 (whole ++ frac), frac.length⟩ := by
  rcases h with ⟨rfl, ⟨nonempty, digits⟩, rfl⟩ | ⟨rfl, ⟨nonempty, digits⟩, after⟩ |
    ⟨rfl, rfl, nonempty, digits⟩
  · simp only [parseUnsigned, splitPoint_of_no_dot (dot_not_mem_of_digits digits), if_neg nonempty,
      digitsValue_eq_some.mpr ⟨digits, rfl⟩, List.append_nil, List.length_nil]
  · have all : ∀ b ∈ whole ++ frac, IsDigit b := List.forall_mem_append.mpr
      ⟨digits, after.elim (fun empty => empty ▸ List.forall_mem_nil _) And.right⟩
    rw [List.append_assoc]
    exact parseUnsigned_of_point all (fun empty => nonempty empty.1) neg
  · exact parseUnsigned_of_point (whole := []) digits (fun empty => nonempty empty.2) neg

/-- What is read without a sign is an unsigned literal. -/
theorem spells_of_parseUnsigned {neg : Bool} {s : Bytes} {d : Decimal}
    (h : parseUnsigned neg s = some d) : ∃ whole frac, SpellsUnsigned s whole frac := by
  have join := splitPoint_join s
  unfold parseUnsigned at h
  split at h
  · rename_i whole parts
    rw [parts] at join
    split_ifs at h with empty
    split at h
    · rename_i v read
      exact ⟨whole, [], .inl ⟨by simpa using join, ⟨empty, (digitsValue_eq_some.mp read).1⟩, rfl⟩⟩
    · cases h
  · rename_i whole frac parts
    rw [parts] at join
    split_ifs at h with empty
    split at h
    · rename_i v read
      obtain ⟨before, after⟩ := List.forall_mem_append.mp (digitsValue_eq_some.mp read).1
      refine ⟨whole, frac, .inr ?_⟩
      by_cases bare : whole = []
      · subst bare
        exact .inr ⟨by simpa [Chars.dot] using join, rfl, fun none_after => empty ⟨rfl, none_after⟩, after⟩
      · exact .inl ⟨by simpa [Chars.dot] using join, ⟨bare, before⟩,
          or_iff_not_imp_left.mpr (⟨·, after⟩)⟩
    · cases h

/-- An unsigned literal does not begin with a sign. -/
theorem SpellsUnsigned.no_sign {s whole frac : Bytes} (h : SpellsUnsigned s whole frac) :
    ∃ b rest, s = b :: rest ∧ b ≠ Chars.plus ∧ b ≠ Chars.minus := by
  have digits : ∀ {ds : Bytes}, IsDigits ds →
      ∃ b rest, ds = b :: rest ∧ b ≠ Chars.plus ∧ b ≠ Chars.minus := by
    rintro ds ⟨nonempty, digits⟩
    obtain ⟨b, rest, rfl⟩ := List.exists_cons_of_ne_nil nonempty
    have digit := digits b List.mem_cons_self
    exact ⟨b, rest, rfl, fun plus => not_isDigit_mark (.inr (.inl plus)) digit,
      fun minus => not_isDigit_mark (.inr (.inr minus)) digit⟩
  rcases h with ⟨rfl, h, -⟩ | ⟨rfl, h, -⟩ | ⟨rfl, -⟩
  · exact digits h
  · obtain ⟨b, rest, rfl, other⟩ := digits h
    exact ⟨b, _, rfl, other⟩
  · exact ⟨_, _, rfl, by decide, by decide⟩

/-- A literal of the grammar is read: its sign, its digits as one number, and how many stand after the
point (R122). -/
theorem parseDecimal_of_spells {r sign whole frac : Bytes} (h : Spells r sign whole frac) :
    parseDecimal r = some ⟨decide (sign = [0x2D]), numberFrom 0 (whole ++ frac), frac.length⟩ := by
  obtain ⟨signs, s, rfl, unsigned⟩ := spells_iff.mp h
  rcases signs with rfl | rfl | rfl
  · obtain ⟨b, rest, rfl, plus, minus⟩ := unsigned.no_sign
    simp only [List.nil_append, parseDecimal, if_neg plus, if_neg minus]
    exact parseUnsigned_of_spells unsigned false
  · exact parseUnsigned_of_spells unsigned false
  · exact parseUnsigned_of_spells unsigned true

/-- Nothing else is read. -/
theorem spells_of_parseDecimal {r : Bytes} {d : Decimal} (h : parseDecimal r = some d) :
    ∃ sign whole frac, Spells r sign whole frac := by
  have signed : ∀ {sign s : Bytes} {neg : Bool}, (sign = [] ∨ sign = [0x2B] ∨ sign = [0x2D]) →
      parseUnsigned neg s = some d → ∃ sign' whole frac, Spells (sign ++ s) sign' whole frac := by
    intro sign s neg signs read
    obtain ⟨whole, frac, unsigned⟩ := spells_of_parseUnsigned read
    exact ⟨sign, whole, frac, spells_iff.mpr ⟨signs, s, rfl, unsigned⟩⟩
  unfold parseDecimal at h
  split at h
  · cases h
  · split_ifs at h with plus minus
    · subst plus; exact signed (.inr (.inl rfl)) h
    · subst minus; exact signed (.inr (.inr rfl)) h
    · exact signed (.inl rfl) h

/-- `parseDecimal` accepts exactly the grammar of R122. -/
theorem isSome_parseDecimal (r : Bytes) :
    (parseDecimal r).isSome ↔ ∃ sign whole frac, Spells r sign whole frac := by
  constructor
  · intro h
    obtain ⟨d, read⟩ := Option.isSome_iff_exists.mp h
    exact spells_of_parseDecimal read
  · rintro ⟨sign, whole, frac, h⟩
    simp [parseDecimal_of_spells h]

/-- The value of a literal is that of its digits before the point and its fraction after it (R122). -/
theorem value_of_digits (neg : Bool) (whole frac : Bytes) :
    (Decimal.mk neg (numberFrom 0 (whole ++ frac)) frac.length).value = (if neg then -1 else 1) *
      ((numberFrom 0 whole : ℚ) + (numberFrom 0 frac : ℚ) / 10 ^ frac.length) := by
  rw [Decimal.value, numberFrom_append]
  push_cast
  field_simp

/-! ### The bands -/

/-- A value that is not negative is its digits over its power of ten: a negative zero has no digits. -/
theorem value_of_not_negative {d : Decimal} (h : d.isNegative = false) :
    d.value = (d.digits : ℚ) / 10 ^ d.scale := by
  obtain ⟨neg, digits, scale⟩ := d
  cases neg with
  | false => simp [Decimal.value]
  | true =>
    obtain rfl : digits = 0 := by simpa [Decimal.isNegative] using h
    simp [Decimal.value]

/-- The test on the digits is that of the value (R121). -/
theorem isNegative_iff (d : Decimal) : d.isNegative = true ↔ d.value < 0 := by
  cases h : d.isNegative with
  | false =>
    have nonneg : 0 ≤ d.value := by rw [value_of_not_negative h]; positivity
    simpa using nonneg
  | true =>
    obtain ⟨neg, digits⟩ : d.neg = true ∧ d.digits ≠ 0 := by simpa [Decimal.isNegative] using h
    have below : -(d.digits : ℚ) / 10 ^ d.scale < 0 :=
      div_neg_of_neg_of_pos (by simpa [pos_iff_ne_zero]) (by positivity)
    simpa [Decimal.value, neg] using below

/-- The test on whole numbers is that of the exact rationals, the bound inclusive (R123). -/
theorem atMostHundredths_iff {d : Decimal} (h : d.isNegative = false) (n : Nat) :
    d.atMostHundredths n = true ↔ d.value ≤ n / 100 := by
  rw [value_of_not_negative h, div_le_div_iff₀ (by positivity) (by norm_num), Decimal.atMostHundredths,
    decide_eq_true_iff, mul_comm]
  exact_mod_cast Iff.rfl

/-- Range selection compares the exact value with the limits of R121. -/
theorem bandCode_eq (p : Params) (d : Decimal) : bandCode p d =
    if d.value < 0 then .error .range
    else if d.value ≤ 29.99 then .ok p.rangeCode1
    else if d.value ≤ 299.9 then .ok p.rangeCode2
    else if d.value ≤ 2999 then .ok p.rangeCode3
    else if d.value ≤ 29999 then .ok p.rangeCode4
    else if d.value ≤ 299999 then .ok p.rangeCode5
    else .error .range := by
  cases h : d.isNegative with
  | true => rw [bandCode, if_pos h, if_pos ((isNegative_iff d).mp h)]
  | false =>
    have nonneg : ¬ d.value < 0 := (isNegative_iff d).not.mp (by simp [h])
    simp only [bandCode, h, Bool.false_eq_true, if_false, if_neg nonneg, atMostHundredths_iff h]
    norm_num

/-- `"auto"` selects the sentinel (R122). -/
theorem selectRange_auto (p : Params) : selectRange p autoText = .ok p.rangeCodeAuto := if_pos rfl

/-- A string outside the grammar is BadRangeSyntax (R122). -/
theorem selectRange_of_no_literal {p : Params} {r : Bytes} (auto : r ≠ autoText)
    (unread : parseDecimal r = none) : selectRange p r = .error (.format .badRangeSyntax) := by
  rw [selectRange, if_neg auto, unread]

/-- A literal selects the band of its value. -/
theorem selectRange_of_literal {p : Params} {r : Bytes} {d : Decimal} (auto : r ≠ autoText)
    (read : parseDecimal r = some d) : selectRange p r = bandCode p d := by
  rw [selectRange, if_neg auto, read]

end Sys2Proof.Machine
end

section
/-! SUPPORT. The statements on 41_classify_measure.md, with R124 of 42_session.md's CONFIGURE_AND_READ. -/

namespace Sys2Proof.Machine

/-- Settles O7: a span with itself is the joined span of two equal parts. -/
theorem bccIsOrderFreeXor : Obligations.BccIsOrderFreeXor :=
  ⟨bcc_append, fun _ _ => bcc_perm, fun a => (bcc_append a a).trans BitVec.xor_self⟩

/-- Settles O15: the two positions are read by their tables. -/
theorem classifyStatusFollowsTheTables : Obligations.ClassifyStatusFollowsTheTables := by
  have exec_of : ∀ {status : Bytes} {r : Except Raised StatusClass}, classifyStatus status = r →
      ∀ s : State, exec (.classifyStatus status) s = .next (s.answered (outcomeOf (r.map .status))) :=
    fun h s => h ▸ exec_classifyStatus s _
  refine ⟨fun p status short => ?request, fun status s wrong => exec_of (classifyStatus_of_length wrong) s,
    fun x e y b s => ⟨fun err bat error battery => exec_of (classifyStatus_of_known error battery x y) s,
      fun unknown => exec_of (classifyStatus_of_unknown unknown x y) s⟩⟩
  case request => exact decodeRequest_str (i := .classifyStatus status) rfl (fits_of_le short short)

/-- Settles O16: each clause is one case of the field: its length, `SP^6`, a byte that is no digit, five
digits. -/
theorem decodeMeasurementAnswersTheReading : Obligations.DecodeMeasurementAnswersTheReading := by
  have exec_of : ∀ {m : Bytes} {r : Except Raised Reading}, decodeMeasurement m = r →
      ∀ s : State, exec (.decodeMeasurement m) s = .next (s.answered (outcomeOf (r.map .reading))) :=
    fun h s => h ▸ exec_decodeMeasurement s _
  refine ⟨fun p m short => ?request, fun m s wrong => exec_of (decodeMeasurement_of_length wrong) s,
    fun s => exec_of (m := spaces 6) (r := .ok .absent) rfl s, fun g a b c d x s present bad => ?noDigit,
    fun g a b c d x s digits => ?digits⟩
  case request => exact decodeRequest_str (i := .decodeMeasurement m) rfl (fits_of_le short short)
  case noDigit =>
    obtain ⟨y, mem, outside⟩ := bad
    exact exec_of (decodeMeasurement_of_no_digit present ⟨y, mem, by unfold IsDigit; omega⟩) s
  case digits =>
    obtain ⟨va, a_value, ha⟩ := digit?_of_isDigit (digits a (by simp))
    obtain ⟨vb, b_value, hb⟩ := digit?_of_isDigit (digits b (by simp))
    obtain ⟨vc, c_value, hc⟩ := digit?_of_isDigit (digits c (by simp))
    obtain ⟨vd, d_value, hd⟩ := digit?_of_isDigit (digits d (by simp))
    obtain ⟨vx, x_value, hx⟩ := digit?_of_isDigit (digits x (by simp))
    have exponent : exponentOf vx = (x.toNat : Int) - 0x30 - 4 := by
      have lower := (digits x (by simp)).1
      unfold exponentOf
      omega
    refine ⟨mantissaOf va vb vc vd, by simp only [mantissaOf, a_value, b_value, c_value, d_value], ?_⟩
    rw [exec_of (decodeMeasurement_of_digits ha hb hc hd hx), exponent]
    rfl

/-- Settles O17: a value is a whole number of units of 1/10000, at most 9999 * 10^9 of them. -/
theorem readingsAreExactRationals : Obligations.ReadingsAreExactRationals := by
  refine ⟨⟨.present false 1 (-4), rfl, ?smallest⟩, ⟨.present false 9999 5, rfl, ?largest⟩,
    fun m neg mantissa exp decoded => ?exact⟩
  case smallest =>
    rw [show (-4 : Int) = exponentOf 0 from rfl, value_present]; norm_num
  case largest =>
    rw [show (5 : Int) = exponentOf 9 from rfl, value_present]; norm_num
  case exact =>
    obtain ⟨x, rfl⟩ := exponent_of_decodeMeasurement decoded
    have zeros : (exponentOf x + 4).toNat = x.val := by unfold exponentOf; omega
    have bound : mantissa.val * 10 ^ x.val ≤ 9999 * 10 ^ 9 :=
      Nat.mul_le_mul (by omega) (Nat.pow_le_pow_right (by norm_num) (by omega))
    refine ⟨_, value_present neg mantissa x, ?units, ?_, ?_, fun nonzero => ?least, ?most⟩
    case units => rw [zeros, div_mul_cancel₀ _ (by norm_num)]; push_cast; ring
    case least =>
      have unit : 1 ≤ mantissa.val * 10 ^ x.val := by
        refine Nat.one_le_iff_ne_zero.mpr fun zero => nonzero ?_
        rw [zero]; simp
      rw [abs_signed_div]
      gcongr
      exact_mod_cast unit
    case most =>
      rw [abs_signed_div, div_le_iff₀ (by norm_num)]
      exact_mod_cast bound
    all_goals unfold exponentOf; omega

/-- Settles O18: `Spells` is the grammar. -/
theorem rangeLiteralsFollowTheGrammar : Obligations.RangeLiteralsFollowTheGrammar := by
  refine ⟨isSome_parseDecimal, fun r sign whole frac d h read => ?value, fun p r auto outside =>
    ?outside⟩
  case value =>
    obtain rfl := Option.some.inj ((parseDecimal_of_spells h).symm.trans read)
    have value := value_of_digits (decide (sign = [0x2D])) whole frac
    simp only [decide_eq_true_eq] at value
    exact value
  case outside =>
    have unread := (isSome_parseDecimal r).not.mpr outside
    exact selectRange_of_no_literal auto (Option.not_isSome_iff_eq_none.mp unread)

/-- Settles O19: the bands are compared with the exact value, and the answer is the band's. -/
theorem selectRangeFollowsTheBands : Obligations.SelectRangeFollowsTheBands := by
  intro r s
  have exec_of : ∀ {a : Except Raised Byte}, selectRange s.params r = a →
      exec (.selectRange r) s = .next (s.answered (outcomeOf (a.map .rangeCode))) :=
    fun h => h ▸ exec_selectRange s r
  refine ⟨fun bound short => ?request, fun auto => ?auto,
    fun auto unread => exec_of (selectRange_of_no_literal auto unread), fun d auto read => ?band⟩
  case request => exact decodeRequest_str (i := .selectRange r) rfl (fits_of_le bound short)
  case auto => subst auto; exact exec_of (selectRange_auto s.params)
  case band =>
    rw [exec_of (selectRange_of_literal auto read), bandCode_eq]
    congr 2
    split_ifs <;> rfl

/-- The info record of a range error names no variant and no head (R180 step 1). -/
theorem outcomeOf_range_error {p : Params} {r : Bytes} {e : Raised} (h : selectRange p r = .error e) :
    outcomeOf (.error e) = .err e.kind ⟨e.reason, 0, 0, 0xFF⟩ := by
  rcases selectRange_eq_error h with rfl | rfl <;> rfl

/-- Settles O20: the request is the encoder's, and the answer is the packed parameter or the range's error. -/
theorem packReadParamLaysOutFourBytes : Obligations.PackReadParamLaysOutFourBytes := by
  intro hold ccf r s
  refine ⟨fun bound short => ?request, fun rc selected => ?packed, fun e refused => ?error⟩
  case request =>
    have decoded := decodeOfEncodeIsTheOperation s.params (.packReadParam hold ccf r)
      (fits_of_le bound short)
    rwa [encode_packReadParam] at decoded
  case packed =>
    rw [exec_packReadParam, packReadParam, selected]
    rfl
  case error =>
    rw [exec_packReadParam, packReadParam, refused, ← outcomeOf_range_error refused]
    rfl

/-- Settles O28: the range is selected before the first head is served, and its error ends the accepted
operation at once. -/
theorem rangeIsCheckedBeforeAnyFrame : Obligations.RangeIsCheckedBeforeAnyFrame := by
  intro heads hold ccf range s e idle remote refused
  have errors := selectRange_eq_error refused
  refine ⟨?_, errors⟩
  have start : exec (.configureAndRead heads hold ccf range) s = .next (s.accept.answer (.error e)) := by
    simp only [exec, execConfigureAndRead, idle, configureAndReadStart, if_pos remote, refused]
    rfl
  have plain : e.kind.fatal = false := by rcases errors with rfl | rfl <;> rfl
  rw [start, State.answer_accept (by rintro _ ⟨⟩; exact plain), outcomeOf_range_error refused]

end Sys2Proof.Machine
end

section
/-! SUPPORT. The device operations move by move (42_session.md R131 to R143): what the exchange primitives do
with a good answer, what each operation does in each of its phases, and the error entries that the
operations meet. -/

namespace Sys2Proof.Machine

/-! ### The exchange primitives -/

section Primitives
variable {s : State} {c : OpContext}

/-- After the count 14 the operation goes on (R131). -/
theorem State.onSendAnswer_of_whole {rest : List SendAnswer} (cur : s.cur = some c)
    (answers : s.sendAnswers = .count 14 :: rest) (next : OpContext → State → State) :
    s.onSendAnswer next = .next (next c (s.sendTaken rest)) := by
  simp only [State.onSendAnswer, cur, answers, judgeSend_eq_none.mpr rfl, State.sendTaken]

/-- After a reply of the length asked for the operation goes on (R132). -/
theorem State.onReceiveAnswer_of_whole {n : ReplyKind} {b : Bytes} {rest : List RecvAnswer}
    (cur : s.cur = some c) (answers : s.recvAnswers = .bytes b :: rest) (whole : b.length = n.length)
    (next : OpContext → Bytes → State → State) :
    s.onReceiveAnswer n next = .next (next c b (s.replyTaken b rest)) := by
  simp only [State.onReceiveAnswer, cur, answers, judgeReceive_eq_some.mpr ⟨rfl, whole⟩,
    State.replyTaken]

/-- After the settle of an operation that has failed its error is delivered (R180 step 4). -/
theorem State.onElapsed_of_failure {g : Failure} (cur : s.cur = some c) (failed : c.failure = some g)
    (next : OpContext → State → State) :
    s.onElapsed next = .next (({ s with settlePending := false } : State).ended
      (.err g.kind g.info)) := by
  simp only [State.onElapsed, cur, failed]
  rfl

/-- After the settle of another operation it goes on (R133). -/
theorem State.onElapsed_of_no_failure (cur : s.cur = some c) (fine : c.failure = none)
    (next : OpContext → State → State) :
    s.onElapsed next =
      .next (next c { s with settlePending := false, cur := some { c with owe := none } }) := by
  simp only [State.onElapsed, cur, fine]

/-- An error that is not fatal, raised by an operation that owes a settle, waits for it (R180). -/
theorem State.raise_eq_settlingFor {e : Raised} {k : SettleKind} (plain : e.kind.fatal = false)
    (cur : s.cur = some c) (owe : c.owe = some k) :
    s.raise e c.index c.sentHead = s.settlingFor k c e :=
  State.raise_owed plain c.index c.sentHead cur owe

/-- No error of the short decoder is fatal. -/
theorem plain_of_decodeShort {p : Params} {b : Bytes} {e : Raised} (refused : decodeShort p b = .error e) :
    e.kind.fatal = false := by
  rcases decodeShort_eq_error refused with rfl | ⟨r, rfl⟩ <;> rfl

/-- A frame that does not encode ends its operation unsent, at its index and head, where no settle is owed
(R93, R180). -/
theorem State.exchange_of_unencoded {head : Byte} {command parameter : Bytes} {e : Raised}
    (refused : encodeShort head command parameter = .error e)
    (unowed : ∀ c', s.cur = some c' → c'.owe = none) :
    s.exchange c (encodeShort head command parameter) =
      s.ended (.err .formatError ⟨e.reason, 0, c.index, c.sentHead⟩) := by
  rw [refused]
  obtain ⟨r, rfl⟩ := encodeShort_eq_error refused
  exact State.raise_plain (e := .format r) rfl c.index c.sentHead unowed

/-- An operation that starts with an exchange sends its frame, or ends with the encoder's error. -/
theorem exec_of_exchange {i : Instr} {head : Byte} {command parameter : Bytes}
    (start : exec i s = .next (s.accept.exchange c (encodeShort head command parameter))) :
    (∀ f, encodeShort head command parameter = .ok f → exec i s = .next (s.started c f)) ∧
    (∀ e, encodeShort head command parameter = .error e →
      exec i s = .next (s.answered (.err .formatError ⟨e.reason, 0, c.index, c.sentHead⟩))) := by
  refine ⟨fun f encoded => ?_, fun e refused => ?_⟩
  · rw [start, encoded]; rfl
  · rw [start, State.exchange_of_unencoded refused (by rintro _ ⟨⟩)]; rfl

end Primitives

/-! ### Each operation in each phase -/

section Phases
variable {s : State}

/-- ENTER_REMOTE in RawMode starts with the mode-switch frame (R137). -/
theorem exec_enterRemote_idle (idle : s.phase = .idle) (raw : s.lifecycle = .rawMode) :
    exec .enterRemote s = .next (s.accept.exchange
      (frameContext .enterRemote 0 0 s.params.modeHead s.params.cmdMode)
      (encodeShort s.params.modeHead s.params.cmdMode s.params.paramRemote)) := by
  simp only [exec, execEnterRemote, idle, enterRemoteStart, if_pos raw]

/-- ENTER_REMOTE waits for its send, to ask for a short reply. -/
theorem exec_enterRemote_awaitSend (sending : s.phase = .awaitSend) :
    exec .enterRemote s = s.onSendAnswer fun _ t => (t.oweSettle .mode).receive .short := by
  simp only [exec, execEnterRemote, sending]

/-- ENTER_REMOTE waits for a short reply, to judge it. -/
theorem exec_enterRemote_awaitRecv (receiving : s.phase = .awaitRecv .short) :
    exec .enterRemote s = s.onReceiveAnswer .short enterRemoteReply := by
  simp only [exec, execEnterRemote, receiving]

/-- ENTER_REMOTE waits for Settle(MODE), to complete. -/
theorem exec_enterRemote_awaitSettle (settling : s.phase = .awaitSettle .mode) :
    exec .enterRemote s = s.onElapsed fun _ t => t.complete .none := by
  simp only [exec, execEnterRemote, settling]

section ConfigureAndRead
variable {heads : List Byte} {hold ccf : Bool} {range : Bytes}

/-- CONFIGURE_AND_READ in RemoteMode, its range selected, goes on to the first head (R139). -/
theorem exec_configureAndRead_idle {rc : Byte} (idle : s.phase = .idle)
    (remote : s.lifecycle = .remoteMode) (selected : selectRange s.params range = .ok rc) :
    exec (.configureAndRead heads hold ccf range) s =
      .next (serveHead heads hold ccf range rc 0 s.accept) := by
  simp only [exec, execConfigureAndRead, idle, configureAndReadStart, if_pos remote, selected]

/-- CONFIGURE_AND_READ waits for its send, to ask for a long reply. -/
theorem exec_configureAndRead_awaitSend (sending : s.phase = .awaitSend) :
    exec (.configureAndRead heads hold ccf range) s =
      s.onSendAnswer fun _ t => (t.oweSettle .read).receive .long := by
  simp only [exec, execConfigureAndRead, sending]

/-- CONFIGURE_AND_READ waits for a long reply, to judge it. -/
theorem exec_configureAndRead_awaitRecv (receiving : s.phase = .awaitRecv .long) :
    exec (.configureAndRead heads hold ccf range) s =
      s.onReceiveAnswer .long configureAndReadReply := by
  simp only [exec, execConfigureAndRead, receiving]

/-- CONFIGURE_AND_READ waits for Settle(READ), to serve the next head. -/
theorem exec_configureAndRead_awaitSettle (settling : s.phase = .awaitSettle .read) :
    exec (.configureAndRead heads hold ccf range) s =
      s.onElapsed fun c t => serveHead heads hold ccf range c.rangeCode (c.index + 1) t := by
  simp only [exec, execConfigureAndRead, settling]

/-- Behind the last head CONFIGURE_AND_READ completes (R139). -/
theorem serveHead_of_end {rc : Byte} {k : Nat} (last : heads[k]? = none) :
    serveHead heads hold ccf range rc k s = s.complete .none := by
  simp only [serveHead, last]

/-- At head `k` CONFIGURE_AND_READ begins the exchange with it (R139). -/
theorem serveHead_of_head {rc h : Byte} {k : Nat} (addressed : heads[k]? = some h) :
    serveHead heads hold ccf range rc k s =
      s.exchange (frameContext (.configureAndRead heads hold ccf range) k rc h s.params.cmdRead)
        (encodeShort h s.params.cmdRead (readParam s.params hold ccf rc)) := by
  simp only [serveHead, addressed]

end ConfigureAndRead

/-- SET_HOLD in RemoteMode starts with its frame to HOLD_HEAD (R142). -/
theorem exec_setHold_idle {flag : Bool} (idle : s.phase = .idle) (remote : s.lifecycle = .remoteMode) :
    exec (.setHold flag) s = .next (s.accept.exchange
      (frameContext (.setHold flag) 0 0 s.params.holdHead s.params.cmdHold)
      (encodeShort s.params.holdHead s.params.cmdHold
        (if flag then s.params.holdParamOn else s.params.holdParamOff))) := by
  simp only [exec, execSetHold, idle, setHoldStart]
  rw [if_pos remote]

/-- SET_HOLD waits for its send, to go on as HOLD_EXPECTS_REPLY says. -/
theorem exec_setHold_awaitSend {flag : Bool} (sending : s.phase = .awaitSend) :
    exec (.setHold flag) s = s.onSendAnswer fun _ t => setHoldSent flag t := by
  simp only [exec, execSetHold, sending]

/-- SET_HOLD waits for a short reply, which must decode. -/
theorem exec_setHold_awaitRecv {flag : Bool} (receiving : s.phase = .awaitRecv .short) :
    exec (.setHold flag) s = s.onReceiveAnswer .short (setHoldReply flag) := by
  simp only [exec, execSetHold, receiving]

/-- SET_HOLD waits for Settle(HOLD), to complete. -/
theorem exec_setHold_awaitSettle {flag : Bool} (settling : s.phase = .awaitSettle .hold) :
    exec (.setHold flag) s = s.onElapsed fun _ t => t.complete .none := by
  simp only [exec, execSetHold, settling]

/-- CLEAR_INTEGRATED in RemoteMode starts with its frame to the one head (R143). -/
theorem exec_clearIntegrated_idle {head : Byte} (idle : s.phase = .idle)
    (remote : s.lifecycle = .remoteMode) :
    exec (.clearIntegrated head) s = .next (s.accept.exchange
      (frameContext (.clearIntegrated head) 0 0 head s.params.cmdClear)
      (encodeShort head s.params.cmdClear s.params.clearParam)) := by
  simp only [exec, execClearIntegrated, idle, clearIntegratedStart, if_pos remote]

/-- CLEAR_INTEGRATED waits for its send, to complete. -/
theorem exec_clearIntegrated_awaitSend {head : Byte} (sending : s.phase = .awaitSend) :
    exec (.clearIntegrated head) s = s.onSendAnswer fun _ t => t.complete .none := by
  simp only [exec, execClearIntegrated, sending]

end Phases

end Sys2Proof.Machine
end

section
/-! SUPPORT. The statements on 42_session.md, but for the whole run of CONFIGURE_AND_READ. -/

namespace Sys2Proof.Machine

/-! ### The lifecycle operations -/

/-- Settles O2: HELD's code stands above the two bits of LIFECYCLE's. -/
theorem readStateAnswersTheStateByte : Obligations.ReadStateAnswersTheStateByte := by
  refine ⟨fun p => decodeOfEncodeIsTheOperation p .readState rfl, fun s => ⟨s.stateByte, rfl, ?_⟩⟩
  unfold State.stateByte
  cases s.held <;> cases s.lifecycle <;> rfl

/-- Settles O3: the two sides of ATTACH's check of LIFECYCLE. -/
theorem attachOpensTheSession : Obligations.AttachOpensTheSession := by
  refine ⟨fun p => decodeOfEncodeIsTheOperation p .attach rfl, fun s =>
    ⟨fun out => ?_, fun session => ?_⟩⟩
  · simp only [exec, execAttach, if_pos out]; rfl
  · simp only [exec, execAttach, if_neg session]; rfl

/-- Settles O4. -/
theorem detachDiscardsTheSession : Obligations.DetachDiscardsTheSession :=
  ⟨fun p => decodeOfEncodeIsTheOperation p .detach rfl, fun _ => rfl⟩

/-! ### Sends and settles -/

/-- The operation in CUR notes the settle it owes and waits for a reply. -/
theorem State.oweSettle_receive {s : State} {c : OpContext} (cur : s.cur = some c) (k : SettleKind)
    (n : ReplyKind) : (s.oweSettle k).receive n =
      { s with cur := some { c with owe := some k }, phase := .awaitRecv n } := by
  simp only [State.receive, State.oweSettle, cur, Option.map_some]

/-- After a whole send ENTER_REMOTE owes Settle(MODE) and waits for a short reply (R137). -/
theorem exec_enterRemote_of_sent {s : State} {c : OpContext} {rest : List SendAnswer}
    (sending : s.phase = .awaitSend) (cur : s.cur = some c) (answers : s.sendAnswers = .count 14 :: rest) :
    exec .enterRemote s = .next { s.sendTaken rest with
      cur := some { c with owe := some .mode }, phase := .awaitRecv .short } := by
  rw [exec_enterRemote_awaitSend sending, State.onSendAnswer_of_whole cur answers,
    State.oweSettle_receive (s := s.sendTaken rest) cur]

/-- After a whole send CONFIGURE_AND_READ owes Settle(READ) and waits for a long reply (R140). -/
theorem exec_configureAndRead_of_sent {heads : List Byte} {hold ccf : Bool} {range : Bytes} {s : State}
    {c : OpContext} {rest : List SendAnswer} (sending : s.phase = .awaitSend) (cur : s.cur = some c)
    (answers : s.sendAnswers = .count 14 :: rest) :
    exec (.configureAndRead heads hold ccf range) s = .next { s.sendTaken rest with
      cur := some { c with owe := some .read }, phase := .awaitRecv .long } := by
  rw [exec_configureAndRead_awaitSend sending, State.onSendAnswer_of_whole cur answers,
    State.oweSettle_receive (s := s.sendTaken rest) cur]

/-- Settles O26: the two good sends. -/
theorem goodSendsAskForTheReply : Obligations.GoodSendsAskForTheReply :=
  fun _ _ _ sending cur answers => ⟨exec_enterRemote_of_sent sending cur answers,
    fun _ _ _ _ => exec_configureAndRead_of_sent sending cur answers⟩

/-- After its settle ENTER_REMOTE completes, if it has not failed (R137). -/
theorem exec_enterRemote_settled {s : State} {c : OpContext} (settling : s.phase = .awaitSettle .mode)
    (cur : s.cur = some c) (fine : c.failure = none) :
    exec .enterRemote s = .next (({ s with settlePending := false } : State).ended (.ok .none)) := by
  rw [exec_enterRemote_awaitSettle settling, State.onElapsed_of_no_failure cur fine]
  rfl

/-- Settles O27: a failed operation delivers its error whichever it is; without a failure only ENTER_REMOTE
and SET_HOLD are left, and they complete. -/
theorem elapsedSettleDelivers : Obligations.ElapsedSettleDelivers := by
  intro i s c kind settles settling cur
  refine ⟨fun g failed => ?_, fun fine other => ?_⟩
  · obtain ⟨next, h⟩ := exec_awaitSettle settles settling
    rw [h, State.onElapsed_of_failure cur failed]
  · cases i with
    | enterRemote =>
      cases settles
      exact exec_enterRemote_settled settling cur fine
    | setHold flag =>
      cases settles
      rw [exec_setHold_awaitSettle settling, State.onElapsed_of_no_failure cur fine]; rfl
    | configureAndRead heads hold ccf range => exact absurd rfl (other heads hold ccf range)
    | _ => cases settles

/-! ### ENTER_REMOTE -/

/-- Settles O22: the start is an exchange. -/
theorem enterRemoteSendsTheModeSwitch : Obligations.EnterRemoteSendsTheModeSwitch :=
  fun _ idle raw => exec_of_exchange (exec_enterRemote_idle idle raw)

section Echo
variable {s : State} {c : OpContext} {b : Bytes} {r : ShortFields}

/-- The head is checked first (R138). -/
theorem echoMismatch_of_head (wrong : r.head.val ≠ c.sentHead.toNat) :
    echoMismatch c r = some .headMismatch := if_pos wrong

/-- The command is checked next. -/
theorem echoMismatch_of_command (head : r.head.val = c.sentHead.toNat)
    (wrong : r.command ≠ c.sentCommand) : echoMismatch c r = some .commandMismatch := by
  rw [echoMismatch, if_neg (not_not.mpr head), if_pos wrong]

/-- The parameter is checked last. -/
theorem echoMismatch_of_parameter (head : r.head.val = c.sentHead.toNat)
    (command : r.command = c.sentCommand) (wrong : r.parameter ≠ spaces 4) :
    echoMismatch c r = some .parameterNotEmpty := by
  rw [echoMismatch, if_neg (not_not.mpr head), if_neg (not_not.mpr command), if_pos wrong]

/-- A reply of ENTER_REMOTE that does not decode waits for the settle with the decoder's error. -/
theorem enterRemoteReply_of_undecodable {e : Raised} (cur : s.cur = some c) (owe : c.owe = some .mode)
    (refused : decodeShort s.params b = .error e) :
    enterRemoteReply c b s = s.settlingFor .mode c e := by
  simp only [enterRemoteReply, refused, State.raise_eq_settlingFor (plain_of_decodeShort refused) cur owe]

/-- A wrong echo waits for the settle with its reason. -/
theorem enterRemoteReply_of_mismatch {reason : ProtocolReason} (cur : s.cur = some c)
    (owe : c.owe = some .mode) (decoded : decodeShort s.params b = .ok r)
    (mismatch : echoMismatch c r = some reason) :
    enterRemoteReply c b s = s.settlingFor .mode c (.protocol reason) := by
  simp only [enterRemoteReply, decoded, mismatch,
    State.raise_eq_settlingFor (e := .protocol reason) rfl cur owe]

/-- A right echo makes LIFECYCLE RemoteMode, and the settle begins. -/
theorem enterRemoteReply_of_echo (decoded : decodeShort s.params b = .ok r)
    (echo : echoMismatch c r = none) :
    enterRemoteReply c b s =
      { s with lifecycle := .remoteMode, settlePending := true, phase := .awaitSettle .mode } := by
  simp only [enterRemoteReply, decoded, echo]
  rfl

end Echo

/-- The right echo is taken into RXBUF, LIFECYCLE becomes RemoteMode, and the settle begins. -/
theorem exec_enterRemote_of_echo {s : State} {c : OpContext} {b : Bytes} {rest : List RecvAnswer}
    {r : ShortFields} (receiving : s.phase = .awaitRecv .short) (cur : s.cur = some c)
    (answers : s.recvAnswers = .bytes b :: rest) (decoded : decodeShort s.params b = .ok r)
    (echo : echoMismatch c r = none) :
    exec .enterRemote s = .next { s.replyTaken b rest with
      lifecycle := .remoteMode, settlePending := true, phase := .awaitSettle .mode } := by
  rw [exec_enterRemote_awaitRecv receiving,
    State.onReceiveAnswer_of_whole (n := .short) cur answers (decodeShort_length decoded),
    enterRemoteReply_of_echo (s := s.replyTaken b rest) decoded echo]

/-- Settles O23: the reply is taken into RXBUF and judged; each clause is one case of the echo check. -/
theorem enterRemoteChecksTheEcho : Obligations.EnterRemoteChecksTheEcho := by
  intro s c b rest receiving cur answers sentHead sentCommand owe
  rw [← sentHead, ← sentCommand]
  have taken (whole : b.length = 14) : exec .enterRemote s =
      .next (enterRemoteReply c b (s.replyTaken b rest)) :=
    (exec_enterRemote_awaitRecv receiving).trans
      (State.onReceiveAnswer_of_whole (n := .short) cur answers whole _)
  refine ⟨fun e whole refused => ?_, fun r decoded => ?_⟩
  · rw [taken whole, enterRemoteReply_of_undecodable (s := s.replyTaken b rest) cur owe refused]
  · have mismatch {reason : ProtocolReason} (wrong : echoMismatch c r = some reason) :
        exec .enterRemote s = .next ((s.replyTaken b rest).settlingFor .mode c (.protocol reason)) := by
      rw [taken (decodeShort_length decoded),
        enterRemoteReply_of_mismatch (s := s.replyTaken b rest) cur owe decoded wrong]
    exact ⟨fun wrong => mismatch (echoMismatch_of_head wrong),
      fun head wrong => mismatch (echoMismatch_of_command head wrong),
      fun head command wrong => mismatch (echoMismatch_of_parameter head command wrong),
      fun head command parameter => exec_enterRemote_of_echo receiving cur answers decoded
        (echoMismatch_eq_none.mpr ⟨head, command, parameter⟩)⟩

/-- A step that answers a next state is the first of a run. -/
theorem run_succ {s t : State} {n : Nat} (h : step s = .next t) :
    Host.Core.run Sys2Proof.core (n + 1) s = Host.Core.run Sys2Proof.core n t := by
  simp only [Host.Core.run, Sys2Proof.core, h]

/-- In a wait a run goes on with the device operation in CUR (R20). -/
theorem run_of_busy {s t : State} {n : Nat} {c : OpContext} (input : s.resetInput = false)
    (busy : s.phase ≠ .idle) (cur : s.cur = some c) (device : isDevice c.request = true)
    (h : exec c.request s = .next t) :
    Host.Core.run Sys2Proof.core (n + 1) s = Host.Core.run Sys2Proof.core n t :=
  run_succ ((step_of_busy input busy cur device).trans h)

/-- At an idle engine a run goes on with the request at the port, taken off it (R54). -/
theorem run_of_request {s t : State} {n : Nat} {request : Bytes} {requests : List Bytes} {i : Instr}
    (input : s.resetInput = false) (idle : s.phase = .idle) (port : s.hostPort = request :: requests)
    (decoded : decodeRequest s.params request = .ok i)
    (h : exec i { s with hostPort := requests } = .next t) :
    Host.Core.run Sys2Proof.core (n + 1) s = Host.Core.run Sys2Proof.core n t :=
  run_succ ((stepRunsTheDecodedRequest s request requests i input idle port decoded
    (decodedRequestIsTheEncoding s.params request i decoded).2).trans h)

/-- Settles O24: the four steps are the start (O22), the good send (O26), the right echo (O23) and the
elapsed settle (O27). -/
theorem enterRemoteRunsToRemoteMode : Obligations.EnterRemoteRunsToRemoteMode := by
  intro s request f echo requests sends receives input idle settled raw port isEnter sendAnswers
    recvAnswers encoded ⟨r, decoded, head, command, parameter⟩
  have accepted : decodeRequest s.params request = .ok .enterRemote :=
    isEnter ▸ decodeOfEncodeIsTheOperation s.params .enterRemote rfl
  have start := (enterRemoteSendsTheModeSwitch { s with hostPort := requests } idle raw).1 f encoded
  refine Eq.trans (run_of_request input idle port accepted start) ?_
  refine Eq.trans (run_of_busy input nofun rfl rfl (exec_enterRemote_of_sent rfl rfl sendAnswers)) ?_
  refine Eq.trans (run_of_busy input nofun rfl rfl (exec_enterRemote_of_echo rfl rfl recvAnswers decoded
    (echoMismatch_eq_none.mpr ⟨head, command, parameter⟩))) ?_
  refine Eq.trans (run_of_busy input nofun rfl rfl (exec_enterRemote_settled rfl rfl rfl)) ?_
  simp only [settled, idle]
  rfl

/-! ### SET_HOLD and CLEAR_INTEGRATED -/

section SetHold
variable {flag : Bool} {s : State} {c : OpContext} {b : Bytes}

/-- Without an expected reply the send is SET_HOLD's success, and its settle begins (R142). -/
theorem setHoldSent_of_silent (cur : s.cur = some c) (silent : s.params.holdExpectsReply = false) :
    setHoldSent flag s = { s with
      held := heldOf flag, cur := some { c with owe := some .hold }, settlePending := true,
      phase := .awaitSettle .hold } := by
  simp only [setHoldSent, silent, Bool.false_eq_true, if_false, setHoldDone, State.settle,
    State.oweSettle, cur, Option.map_some]

/-- With an expected reply SET_HOLD owes its settle and waits for the reply. -/
theorem setHoldSent_of_expected (cur : s.cur = some c) (expected : s.params.holdExpectsReply = true) :
    setHoldSent flag s = { s with
      cur := some { c with owe := some .hold }, phase := .awaitRecv .short } := by
  rw [setHoldSent, if_pos expected, State.oweSettle_receive cur]

/-- A reply that decodes is SET_HOLD's success, and its settle begins. -/
theorem setHoldReply_of_decodable {r : ShortFields} (decoded : decodeShort s.params b = .ok r) :
    setHoldReply flag c b s = { s with
      held := heldOf flag, settlePending := true, phase := .awaitSettle .hold } := by
  simp only [setHoldReply, decoded]
  rfl

/-- A reply of SET_HOLD that does not decode waits for the settle with the decoder's error. -/
theorem setHoldReply_of_undecodable {e : Raised} (cur : s.cur = some c) (owe : c.owe = some .hold)
    (refused : decodeShort s.params b = .error e) :
    setHoldReply flag c b s = s.settlingFor .hold c e := by
  simp only [setHoldReply, refused, State.raise_eq_settlingFor (plain_of_decodeShort refused) cur owe]

end SetHold

/-- Settles O34: the frame, then HELD at the send or at the reply that decodes, as HOLD_EXPECTS_REPLY says. -/
theorem setHoldSetsTheFlag : Obligations.SetHoldSetsTheFlag := by
  intro flag s
  refine ⟨fun f idle remote => (exec_of_exchange (exec_setHold_idle idle remote)).1 f,
    fun e idle remote => (exec_of_exchange (exec_setHold_idle idle remote)).2 e,
    fun c rest sending cur answers => ?sent, fun c b rest receiving cur answers owe => ?replied⟩
  case sent =>
    rw [exec_setHold_awaitSend sending, State.onSendAnswer_of_whole cur answers]
    exact ⟨fun silent => congrArg _ (setHoldSent_of_silent (s := s.sendTaken rest) cur silent),
      fun expected => congrArg _ (setHoldSent_of_expected (s := s.sendTaken rest) cur expected)⟩
  case replied =>
    have taken (whole : b.length = 14) : exec (.setHold flag) s =
        .next (setHoldReply flag c b (s.replyTaken b rest)) :=
      (exec_setHold_awaitRecv receiving).trans
        (State.onReceiveAnswer_of_whole (n := .short) cur answers whole _)
    refine ⟨fun r decoded => (taken (decodeShort_length decoded)).trans ?_,
      fun e whole refused => (taken whole).trans ?_⟩
    · exact congrArg _ (setHoldReply_of_decodable (s := s.replyTaken b rest) decoded)
    · exact congrArg _ (setHoldReply_of_undecodable (s := s.replyTaken b rest) cur owe refused)

/-- Settles O35: the encoder refuses a head above 99 as out of range; the send is the operation's last
event. -/
theorem clearIntegratedEndsWithItsSend : Obligations.ClearIntegratedEndsWithItsSend := by
  intro head s
  have start (idle : s.phase = .idle) (remote : s.lifecycle = .remoteMode) :=
    exec_of_exchange (exec_clearIntegrated_idle (head := head) idle remote)
  refine ⟨fun f idle remote => (start idle remote).1 f, fun e idle remote => (start idle remote).2 e,
    fun idle remote four high => (start idle remote).2 _ (encodeShort_of_high_head four high),
    fun c rest sending cur answers => ?_⟩
  rw [exec_clearIntegrated_awaitSend sending, State.onSendAnswer_of_whole cur answers]
  rfl

/-! ### CONFIGURE_AND_READ, exchange by exchange -/

/-- Settles O29: an empty list has no head at index 0; otherwise the start is an exchange. -/
theorem configureAndReadAddressesTheFirstHead : Obligations.ConfigureAndReadAddressesTheFirstHead := by
  intro hold ccf range rc s idle remote selected
  refine ⟨?_, fun h more => exec_of_exchange ?_⟩
  · rw [exec_configureAndRead_idle idle remote selected, serveHead_of_end rfl]; rfl
  · rw [exec_configureAndRead_idle idle remote selected, serveHead_of_head rfl]; rfl

section Judge
variable {p : Params} {c : OpContext} {b : Bytes} {r : LongFields}

/-- The reply is decoded first (R140). -/
theorem judgeReading_of_undecodable {e : Raised} (refused : decodeLong p b = .error e) :
    judgeReading p c b = .error e := by
  simp only [judgeReading, refused]

/-- Its status is classified next. -/
theorem judgeReading_of_unknown_status {e : Raised} (decoded : decodeLong p b = .ok r)
    (refused : classifyStatus r.status = .error e) : judgeReading p c b = .error e := by
  simp only [judgeReading, decoded, refused]

/-- The head is checked after a status that is not fatal. -/
theorem judgeReading_of_head {cls : StatusClass} {st : RecordStatus} (decoded : decodeLong p b = .ok r)
    (known : classifyStatus r.status = .ok cls) (status : recordStatus cls.err = .ok st)
    (wrong : r.head.val ≠ c.sentHead.toNat) :
    judgeReading p c b = .error (.protocol .headMismatch) := by
  simp only [judgeReading, decoded, known, status, if_pos wrong]

/-- A reply that passes the checks gives the record of its fields. -/
theorem judgeReading_of_good {cls : StatusClass} {st : RecordStatus} (decoded : decodeLong p b = .ok r)
    (known : classifyStatus r.status = .ok cls) (status : recordStatus cls.err = .ok st)
    (head : r.head.val = c.sentHead.toNat) :
    judgeReading p c b = .ok ⟨c.index, r.head, st, cls.battery, r.d1, r.d2, r.d3⟩ := by
  simp only [judgeReading, decoded, known, status, if_neg (not_not.mpr head)]

/-- The two statuses of a record (R27). -/
theorem recordStatus_eq_ok {err : StatusError} {st : RecordStatus} :
    recordStatus err = .ok st ↔ err = .ok ∧ st = .ok ∨ err = .overRange ∧ st = .overRange := by
  cases err <;> cases st <;> simp [recordStatus]

end Judge

/-- An error that is not fatal waits for the settle that CONFIGURE_AND_READ owes. -/
theorem configureAndReadReply_of_error {s : State} {c : OpContext} {b : Bytes} {e : Raised}
    (cur : s.cur = some c) (owe : c.owe = some .read) (judged : judgeReading s.params c b = .error e)
    (plain : e.kind.fatal = false) : configureAndReadReply c b s = s.settlingFor .read c e := by
  simp only [configureAndReadReply, judged, State.raise_eq_settlingFor plain cur owe]

/-- A record is emitted, and the settle begins. -/
theorem configureAndReadReply_of_record {s : State} {c : OpContext} {b : Bytes} {record : HeadResult}
    (judged : judgeReading s.params c b = .ok record) :
    configureAndReadReply c b s =
      { s with results := s.results ++ [record], settlePending := true, phase := .awaitSettle .read } := by
  simp only [configureAndReadReply, judged]
  rfl

/-- A whole reply that is judged to be a record is taken, its record emitted, and the settle begins. -/
theorem exec_configureAndRead_of_record {heads : List Byte} {hold ccf : Bool} {range : Bytes} {s : State}
    {c : OpContext} {b : Bytes} {rest : List RecvAnswer} {record : HeadResult}
    (receiving : s.phase = .awaitRecv .long) (cur : s.cur = some c)
    (answers : s.recvAnswers = .bytes b :: rest) (whole : b.length = 32)
    (judged : judgeReading s.params c b = .ok record) :
    exec (.configureAndRead heads hold ccf range) s = .next { s.replyTaken b rest with
      results := s.results ++ [record], settlePending := true, phase := .awaitSettle .read } := by
  rw [exec_configureAndRead_awaitRecv receiving,
    State.onReceiveAnswer_of_whole (n := .long) cur answers whole]
  exact congrArg _ (configureAndReadReply_of_record (s := s.replyTaken b rest) judged)

/-- Settles O30: the reply is taken into RXBUF and judged, and none of the errors named is fatal. -/
theorem configureAndReadJudgesTheReply : Obligations.ConfigureAndReadJudgesTheReply := by
  intro heads hold ccf range s c b rest receiving cur answers whole owe
  have failed {e : Raised} (judged : judgeReading s.params c b = .error e)
      (plain : e.kind.fatal = false) : exec (.configureAndRead heads hold ccf range) s =
        .next ((s.replyTaken b rest).settlingFor .read c e) := by
    rw [exec_configureAndRead_awaitRecv receiving,
      State.onReceiveAnswer_of_whole (n := .long) cur answers whole]
    exact congrArg _ (configureAndReadReply_of_error (s := s.replyTaken b rest) cur owe judged plain)
  refine ⟨fun e refused => failed (judgeReading_of_undecodable refused) ?_, fun r decoded =>
    ⟨fun e unknown => failed (judgeReading_of_unknown_status decoded unknown) ?_,
      fun err bat st known status => ⟨fun wrong => ?_, fun head => ?_⟩⟩⟩
  · rcases decodeLong_eq_error refused with rfl | ⟨reason, rfl⟩ <;> rfl
  · rcases classifyStatus_eq_error unknown with rfl | rfl <;> rfl
  · exact failed (judgeReading_of_head decoded known (recordStatus_eq_ok.mpr status) wrong) rfl
  · exact exec_configureAndRead_of_record receiving cur answers whole
      (judgeReading_of_good decoded known (recordStatus_eq_ok.mpr status) head)

/-- After a settle without a failure CONFIGURE_AND_READ serves the next head (R139). -/
theorem exec_configureAndRead_settled {heads : List Byte} {hold ccf : Bool} {range : Bytes} {s : State}
    {c : OpContext} (settling : s.phase = .awaitSettle .read) (cur : s.cur = some c)
    (fine : c.failure = none) :
    exec (.configureAndRead heads hold ccf range) s =
      .next (serveHead heads hold ccf range c.rangeCode (c.index + 1)
        { s with settlePending := false, cur := some { c with owe := none } }) := by
  rw [exec_configureAndRead_awaitSettle settling, State.onElapsed_of_no_failure cur fine]

/-- Settles O32: the list has a head at the next index or it does not; a read parameter has four bytes, so a
head above 99 is what the encoder refuses first. -/
theorem configureAndReadServesTheNextHead : Obligations.ConfigureAndReadServesTheNextHead := by
  intro heads hold ccf range s c settling cur fine
  dsimp only
  rw [exec_configureAndRead_settled settling cur fine]
  refine ⟨fun last => ?_, fun h addressed => ?_⟩
  · rw [serveHead_of_end (List.getElem?_eq_none last)]; rfl
  · rw [serveHead_of_head addressed]
    refine ⟨fun f encoded => ?_, fun high => congrArg _ ?_⟩
    · rw [readParam, encoded]; rfl
    · exact State.exchange_of_unencoded (encodeShort_of_high_head rfl high) (by rintro _ ⟨⟩; rfl)

end Sys2Proof.Machine
end

section
/-! SUPPORT. The frames of the device operations under the types of 00_scope.md R9 (42_session.md R147). -/

namespace Sys2Proof.Machine

/-- What the type of a text parameter says (R9). -/
theorem isText_iff {n : Nat} {text : Bytes} :
    isText n text = true ↔ text.length = n ∧ text.all isPrintable = true := by
  simp [isText]

/-- A command and a parameter of their types encode, for a valid head. -/
theorem encodeShort_of_text {head : Byte} {command parameter : Bytes} (valid : head.toNat ≤ 99)
    (two : isText 2 command = true) (four : isText 4 parameter = true) :
    ∃ f, encodeShort head command parameter = .ok f := by
  obtain ⟨commandLength, commandPrintable⟩ := isText_iff.mp two
  obtain ⟨parameterLength, parameterPrintable⟩ := isText_iff.mp four
  refine ⟨_, encodeShort_of_valid parameterLength valid commandLength fun b mem => ?_⟩
  rcases List.mem_append.mp mem with mem | mem
  · exact of_decide_eq_true (List.all_eq_true.mp commandPrintable b mem)
  · exact of_decide_eq_true (List.all_eq_true.mp parameterPrintable b mem)

/-- A frame to any head encodes exactly where the head is valid, if the texts have their types. -/
theorem encodeShort_of_text_iff_valid {command parameter : Bytes} (two : isText 2 command = true)
    (four : isText 4 parameter = true) (head : Byte) :
    (head.toNat ≤ 99 → ∃ f, encodeShort head command parameter = .ok f) ∧
    (99 < head.toNat → encodeShort head command parameter = .error (.format .headOutOfRange)) :=
  ⟨fun valid => encodeShort_of_text valid two four, encodeShort_of_high_head (isText_iff.mp four).1⟩

/-- The part of R9's types that frames depend on. -/
structure FrameTypes (p : Params) : Prop where
  cmdMode : isText 2 p.cmdMode = true
  cmdRead : isText 2 p.cmdRead = true
  cmdHold : isText 2 p.cmdHold = true
  cmdClear : isText 2 p.cmdClear = true
  modeHead : p.modeHead.toNat ≤ 99
  holdHead : p.holdHead.toNat ≤ 99
  paramRemote : isText 4 p.paramRemote = true
  holdParamOn : isText 4 p.holdParamOn = true
  holdParamOff : isText 4 p.holdParamOff = true
  clearParam : isText 4 p.clearParam = true
  codes : ∀ b ∈ [p.holdFlagOn, p.holdFlagOff, p.ccfFlagOn, p.ccfFlagOff, p.rangeCodeAuto, p.rangeCode1,
    p.rangeCode2, p.rangeCode3, p.rangeCode4, p.rangeCode5, p.readPad], isPrintable b = true

/-- The premise of R147 gives these types. -/
theorem frameTypes_of_wellTyped {p : Params} (typed : p.wellTyped = true) : FrameTypes p := by
  simp only [Params.wellTyped, Bool.and_eq_true, decide_eq_true_eq, and_assoc] at typed
  obtain ⟨cmdMode, cmdRead, cmdHold, cmdClear, modeHead, holdHead, paramRemote, holdParamOn, holdParamOff,
    clearParam, -, codes, -⟩ := typed
  exact ⟨cmdMode, cmdRead, cmdHold, cmdClear, modeHead, holdHead, paramRemote, holdParamOn, holdParamOff,
    clearParam, List.all_eq_true.mp codes⟩

/-- Range selection answers a range code of the parameters (R121). -/
theorem selectRange_mem {p : Params} {range : Bytes} {rc : Byte} (selected : selectRange p range = .ok rc) :
    rc ∈ [p.rangeCodeAuto, p.rangeCode1, p.rangeCode2, p.rangeCode3, p.rangeCode4, p.rangeCode5] := by
  unfold selectRange at selected
  split_ifs at selected
  · cases selected; simp
  · split at selected
    · cases selected
    · unfold bandCode at selected
      split_ifs at selected <;> cases selected <;> simp

/-- A packed read parameter is a text of four bytes (R68). -/
theorem isText_of_packReadParam {p : Params} (types : FrameTypes p) {hold ccf : Bool}
    {range param : Bytes} (packed : packReadParam p hold ccf range = .ok param) :
    isText 4 param = true := by
  unfold packReadParam at packed
  split at packed
  · cases packed
  · rename_i rc selected
    cases packed
    have code : isPrintable rc = true := types.codes rc <| List.mem_append_left [p.readPad]
      (List.mem_append_right [p.holdFlagOn, p.holdFlagOff, p.ccfFlagOn, p.ccfFlagOff]
        (selectRange_mem selected))
    have holdFlag : isPrintable (if hold then p.holdFlagOn else p.holdFlagOff) = true :=
      types.codes _ (by cases hold <;> simp)
    have ccfFlag : isPrintable (if ccf then p.ccfFlagOn else p.ccfFlagOff) = true :=
      types.codes _ (by cases ccf <;> simp)
    have pad : isPrintable p.readPad = true := types.codes _ (by simp)
    exact isText_iff.mpr ⟨rfl, by simp only [readParam, List.all_cons, List.all_nil, code, holdFlag,
      ccfFlag, pad, Bool.and_self]⟩

/-- Settles O36: every frame of the device operations is of typed texts. -/
theorem typedParametersAlwaysFrame : Obligations.TypedParametersAlwaysFrame := by
  intro p typed
  have types := frameTypes_of_wellTyped typed
  refine ⟨encodeShort_of_text types.modeHead types.cmdMode types.paramRemote, fun flag => ?_,
    encodeShort_of_text_iff_valid types.cmdClear types.clearParam,
    fun h hold ccf range param packed =>
      encodeShort_of_text_iff_valid types.cmdRead (isText_of_packReadParam types packed) h⟩
  cases flag with
  | true => exact encodeShort_of_text types.holdHead types.cmdHold types.holdParamOn
  | false => exact encodeShort_of_text types.holdHead types.cmdHold types.holdParamOff

end Sys2Proof.Machine
end

section
/-! SUPPORT. The whole run of CONFIGURE_AND_READ over heads whose exchanges go well (42_session.md R139 to
R141), by induction on the exchanges still to come. -/

namespace Sys2Proof.Machine

/-- The next exchanges of CONFIGURE_AND_READ from index `k` are `xs`: the transport will take every frame
and answer every reply, and each exchange goes well. -/
structure State.GoesWell (param : Bytes) (k : Nat) (xs : List Exchange) (sends : List SendAnswer)
    (receives : List RecvAnswer) (s : State) : Prop where
  input : s.resetInput = false
  settled : s.settlePending = false
  sendAnswers : s.sendAnswers = List.replicate xs.length (.count 14) ++ sends
  recvAnswers : s.recvAnswers = xs.map (fun x => .bytes x.reply) ++ receives
  good : ∀ (j : Nat) (x : Exchange), xs[j]? = some x → x.good s.params param (k + j)

/-- `s` after the exchange `x` of the operation `c`: the frame sent, the reply taken, the record emitted and
the settle over. -/
def State.exchanged (c : OpContext) (x : Exchange) (sends : List SendAnswer) (receives : List RecvAnswer)
    (s : State) : State :=
  { s with
    phase := .awaitSettle .read, cur := some c, settlePending := false, txBuf := some x.frame,
    rxBuf := some x.reply, results := s.results ++ [x.record], sendAnswers := sends,
    recvAnswers := receives, txStream := s.txStream ++ x.frame }

/-- `s` after CONFIGURE_AND_READ has completed the exchanges `xs`. -/
def State.served (xs : List Exchange) (sends : List SendAnswer) (receives : List RecvAnswer) (s : State) :
    State :=
  { s with
    phase := .idle, cur := none, outcome := some (.ok .none), results := s.results ++ xs.map (·.record),
    sendAnswers := sends, recvAnswers := receives, txBuf := (xs.getLast?.map (·.frame)).or s.txBuf,
    rxBuf := (xs.getLast?.map (·.reply)).or s.rxBuf,
    txStream := s.txStream ++ (xs.map (·.frame)).flatten }

/-- A good exchange's reply has the 32 bytes asked for. -/
theorem Exchange.good.whole {p : Params} {param : Bytes} {k : Nat} {x : Exchange}
    (good : x.good p param k) : x.reply.length = 32 := by
  obtain ⟨-, r, -, decoded, -⟩ := good
  exact decodeLong_length decoded

/-- A good exchange's reply is judged to be its record. -/
theorem Exchange.good.judged {p : Params} {param : Bytes} {k : Nat} {x : Exchange}
    (good : x.good p param k) {c : OpContext} (index : c.index = k) (head : c.sentHead = x.head) :
    judgeReading p c x.reply = .ok x.record := by
  obtain ⟨-, r, cls, decoded, known, echoed, recordIndex, recordHead, status, battery, d1, d2, d3⟩ := good
  rw [judgeReading_of_good decoded known (recordStatus_eq_ok.mpr status) (head ▸ echoed), index,
    ← recordIndex, ← recordHead, ← battery, ← d1, ← d2, ← d3]

section Run
variable {heads : List Byte} {hold ccf : Bool} {range : Bytes} {rc : Byte} {k : Nat} {x : Exchange}
  {xs : List Exchange} {sends : List SendAnswer} {receives : List RecvAnswer} {s : State}

/-- After a good exchange the others still go well. -/
theorem State.GoesWell.exchanged {param : Bytes} (well : s.GoesWell param k (x :: xs) sends receives)
    (c : OpContext) :
    (s.exchanged c x (List.replicate xs.length (.count 14) ++ sends)
      (xs.map (fun x => .bytes x.reply) ++ receives)).GoesWell param (k + 1) xs sends receives where
  input := well.input
  settled := rfl
  sendAnswers := rfl
  recvAnswers := rfl
  good j y h := by
    rw [Nat.add_right_comm, Nat.add_assoc]
    exact well.good (j + 1) y h

/-- A run without exchanges is a completion. -/
theorem State.served_nil (sendAnswers : s.sendAnswers = sends) (recvAnswers : s.recvAnswers = receives) :
    s.served [] sends receives = s.complete .none := by
  subst sendAnswers recvAnswers
  simp only [State.served, List.map_nil, List.append_nil, List.getLast?_nil, List.flatten_nil]
  rfl

/-- A run of exchanges is the first one and the run of the others. -/
theorem State.served_cons (settled : s.settlePending = false) (c : OpContext) (sends' : List SendAnswer)
    (receives' : List RecvAnswer) :
    s.served (x :: xs) sends receives =
      (s.exchanged c x sends' receives').served xs sends receives := by
  simp only [State.served, State.exchanged, settled, List.map_cons, List.flatten_cons,
    List.append_assoc, List.singleton_append, List.getLast?_cons]
  cases xs.getLast? <;> rfl

/-- A good exchange takes three steps: the send, the reply and the settle (R131 to R133, R140). -/
theorem run_exchange {n : Nat} (addressed : heads[k]? = some x.head) (input : s.resetInput = false)
    (sendAnswers : s.sendAnswers = .count 14 :: sends)
    (recvAnswers : s.recvAnswers = .bytes x.reply :: receives)
    (good : x.good s.params (readParam s.params hold ccf rc) k) :
    Host.Core.run Sys2Proof.core (n + 3) (serveHead heads hold ccf range rc k s) =
      Host.Core.run Sys2Proof.core n (serveHead heads hold ccf range rc (k + 1) (s.exchanged
        (frameContext (.configureAndRead heads hold ccf range) k rc x.head s.params.cmdRead) x sends
        receives)) := by
  rw [serveHead_of_head addressed, good.1]
  refine Eq.trans (run_of_busy input nofun rfl rfl
    (exec_configureAndRead_of_sent rfl rfl sendAnswers)) ?_
  refine Eq.trans (run_of_busy input nofun rfl rfl
    (exec_configureAndRead_of_record rfl rfl recvAnswers good.whole (good.judged rfl rfl))) ?_
  refine Eq.trans (run_of_busy input nofun rfl rfl (exec_configureAndRead_settled rfl rfl rfl)) ?_
  rfl

/-- From index `k` on CONFIGURE_AND_READ takes three steps for each head still to serve. -/
theorem run_serveHead (remaining : heads.drop k = xs.map (·.head))
    (well : s.GoesWell (readParam s.params hold ccf rc) k xs sends receives) :
    Host.Core.run Sys2Proof.core (3 * xs.length) (serveHead heads hold ccf range rc k s) =
      .next (s.served xs sends receives) := by
  induction xs generalizing k s with
  | nil =>
    have last : heads[k]? = none := by rw [← List.head?_drop, remaining]; rfl
    rw [serveHead_of_end last]
    exact congrArg _ (State.served_nil well.sendAnswers well.recvAnswers).symm
  | cons x xs ih =>
    have addressed : heads[k]? = some x.head := by rw [← List.head?_drop, remaining]; rfl
    have next : heads.drop (k + 1) = xs.map (·.head) := by rw [← List.tail_drop, remaining]; rfl
    calc
      _ = Host.Core.run Sys2Proof.core (3 * xs.length)
          (serveHead heads hold ccf range rc (k + 1) (s.exchanged _ x _ _)) :=
        run_exchange addressed well.input well.sendAnswers well.recvAnswers (well.good 0 x rfl)
      _ = .next ((s.exchanged _ x _ _).served xs sends receives) := ih next (well.exchanged _)
      _ = .next (s.served (x :: xs) sends receives) := by rw [State.served_cons well.settled]

end Run

/-- Settles O33: the start serves the first head on the accepted state, and the exchanges run from there. -/
theorem configureAndReadServesEveryHead : Obligations.ConfigureAndReadServesEveryHead := by
  intro s request range hold ccf rc xs requests sends receives input idle settled remote port decoded
    selected sendAnswers recvAnswers good
  have well : ({ s with hostPort := requests } : State).accept.GoesWell (readParam s.params hold ccf rc) 0 xs
      sends receives :=
    ⟨input, settled, sendAnswers, recvAnswers, fun k x h => by rw [Nat.zero_add]; exact good k x h⟩
  rw [Nat.add_comm]
  refine Eq.trans (run_of_request input idle port decoded
    (exec_configureAndRead_idle (s := { s with hostPort := requests }) idle remote selected)) ?_
  refine (run_serveHead rfl well).trans ?_
  simp only [State.served, idle]
  rfl

end Sys2Proof.Machine
end

section
/-! SUPPORT. The statements on 60_exceptions.md: error entry (R180, R181), an operation out of its LIFECYCLE
(R178), the transport's failures (R177) and the fatal statuses (R175, R176). -/

namespace Sys2Proof.Machine

/-! ### Error entry -/

/-- What raises a fatal kind (R181). -/
theorem Raised.fatal_iff {e : Raised} :
    e.kind.fatal = true ↔ e = .powerHeadOff ∨ (∃ v, e = .eeprom v) ∨ ∃ r, e = .transport r := by
  cases e <;> simp [Raised.kind, ErrorKind.fatal]

/-- A fatal error ends the session and the operation at once (R180). -/
theorem State.raise_eq_sessionLost {e : Raised} (fatal : e.kind.fatal = true) (index : Nat) (head : Byte)
    (s : State) :
    s.raise e index head = s.sessionLost.ended (.err e.kind (e.info index head)) :=
  State.raise_fatal fatal index head s

/-- Settles O37: the three cases of error entry. -/
theorem errorEntryFollowsItsSteps : Obligations.ErrorEntryFollowsItsSteps := by
  intro e index head s
  refine ⟨fun fatal => State.raise_eq_sessionLost (Raised.fatal_iff.mpr fatal) index head s,
    fun other => ?_⟩
  have plain : e.kind.fatal = false := Bool.eq_false_iff.mpr (mt Raised.fatal_iff.mp other)
  refine ⟨fun c kind cur owe => State.raise_owed plain index head cur owe, fun unowed => ?_⟩
  exact State.raise_plain plain index head fun c cur =>
    Option.eq_none_iff_forall_ne_some.mpr fun kind => unowed c kind cur

/-! ### Operations out of their LIFECYCLE -/

section Illegal
variable {s : State}

/-- ENTER_REMOTE is refused outside RawMode (R130). -/
theorem exec_enterRemote_illegal (idle : s.phase = .idle) (illegal : s.lifecycle ≠ .rawMode) :
    exec .enterRemote s = .next (s.answered (.err .illegalState ⟨0, 0, 0, 0xFF⟩)) := by
  simp only [exec, execEnterRemote, idle, enterRemoteStart, if_neg illegal]
  rfl

/-- CONFIGURE_AND_READ is refused outside RemoteMode, before its range is looked at (R130). -/
theorem exec_configureAndRead_illegal {heads : List Byte} {hold ccf : Bool} {range : Bytes}
    (idle : s.phase = .idle) (illegal : s.lifecycle ≠ .remoteMode) :
    exec (.configureAndRead heads hold ccf range) s =
      .next (s.answered (.err .illegalState ⟨0, 0, 0, 0xFF⟩)) := by
  simp only [exec, execConfigureAndRead, idle, configureAndReadStart, if_neg illegal]
  rfl

/-- SET_HOLD is refused outside RemoteMode (R130). -/
theorem exec_setHold_illegal {flag : Bool} (idle : s.phase = .idle)
    (illegal : s.lifecycle ≠ .remoteMode) :
    exec (.setHold flag) s = .next (s.answered (.err .illegalState ⟨0, 0, 0, 0xFF⟩)) := by
  simp only [exec, execSetHold, idle, setHoldStart]
  rw [if_neg illegal]
  rfl

/-- CLEAR_INTEGRATED is refused outside RemoteMode (R130). -/
theorem exec_clearIntegrated_illegal {head : Byte} (idle : s.phase = .idle)
    (illegal : s.lifecycle ≠ .remoteMode) :
    exec (.clearIntegrated head) s = .next (s.answered (.err .illegalState ⟨0, 0, 0, 0xFF⟩)) := by
  simp only [exec, execClearIntegrated, idle, clearIntegratedStart, if_neg illegal]
  rfl

end Illegal

/-- Settles O5: the five rows of R130 that restrict LIFECYCLE; ATTACH's is a clause of O3. -/
theorem illegalStateChangesNothing : Obligations.IllegalStateChangesNothing := by
  refine ⟨rfl, fun i s idle illegal => ?_⟩
  cases i with
  | attach => exact (attachOpensTheSession.2 s).2 illegal
  | enterRemote => exact exec_enterRemote_illegal idle illegal
  | configureAndRead heads hold ccf range => exact exec_configureAndRead_illegal idle illegal
  | setHold flag => exact exec_setHold_illegal idle illegal
  | clearIntegrated head => exact exec_clearIntegrated_illegal idle illegal
  | _ => exact absurd trivial illegal

/-! ### Failures of the transport -/

/-- A transport's error or a negative count is SendFailed (R131). -/
theorem judgeSend_of_failed {a : SendAnswer} (failed : a = .error ∨ ∃ n, a = .count n ∧ n < 0) :
    judgeSend a = some .sendFailed := by
  rcases failed with rfl | ⟨n, rfl, negative⟩
  · rfl
  · exact if_pos negative

/-- A count below 14 is ShortWrite. -/
theorem judgeSend_of_short {n : Int} (counted : 0 ≤ n) (short : n < 14) :
    judgeSend (.count n) = some .shortWrite := by
  rw [judgeSend, if_neg (not_lt.mpr counted), if_pos short]

/-- A count above 14 is OverCount. -/
theorem judgeSend_of_over {n : Int} (excess : 14 < n) : judgeSend (.count n) = some .overCount := by
  rw [judgeSend, if_neg (by omega), if_neg (by omega), if_pos excess]

/-- An error, or bytes of another length than asked for, are no reply (R132). -/
theorem judgeReceive_of_failed {n : ReplyKind} {a : RecvAnswer}
    (failed : a = .error ∨ ∃ b, a = .bytes b ∧ b.length ≠ n.length) : judgeReceive n a = none := by
  rcases failed with rfl | ⟨b, rfl, wrong⟩
  · rfl
  · exact if_neg wrong

section Failures
variable {s : State} {c : OpContext}

/-- A failed send ends the session with its reason (R131, R177). -/
theorem State.onSendAnswer_of_failed {a : SendAnswer} {rest : List SendAnswer} {reason : TransportReason}
    (cur : s.cur = some c) (answers : s.sendAnswers = a :: rest) (judged : judgeSend a = some reason)
    (next : OpContext → State → State) :
    s.onSendAnswer next = .next ((s.sendTaken rest).sessionLost.ended
      (.err .transportError ⟨reason.code, 0, c.index, c.sentHead⟩)) := by
  simp only [State.onSendAnswer, cur, answers, judged]
  exact congrArg _ (State.raise_eq_sessionLost (e := .transport reason) rfl _ _ (s.sendTaken rest))

/-- A failed receive ends the session (R132, R177). -/
theorem State.onReceiveAnswer_of_failed {n : ReplyKind} {a : RecvAnswer} {rest : List RecvAnswer}
    (cur : s.cur = some c) (answers : s.recvAnswers = a :: rest) (judged : judgeReceive n a = none)
    (next : OpContext → Bytes → State → State) :
    s.onReceiveAnswer n next = .next (({ s with recvAnswers := rest } : State).sessionLost.ended
      (.err .transportError ⟨4, 0, c.index, c.sentHead⟩)) := by
  simp only [State.onReceiveAnswer, cur, answers, judged]
  exact congrArg _ (State.raise_eq_sessionLost (e := .transport .receiveFailed) rfl _ _ _)

end Failures

/-- Settles O25: in each of its two waits for the transport a device operation judges the answer first,
whichever operation it is. -/
theorem transportFailuresEndTheSession : Obligations.TransportFailuresEndTheSession := by
  refine ⟨fun i s c a rest device sending cur answers => ?send,
    fun i n s c a rest reply receiving cur answers failed => ?receive⟩
  case send =>
    obtain ⟨next, h⟩ := exec_awaitSend device sending
    have ends {reason : TransportReason} (judged : judgeSend a = some reason) :=
      h.trans (State.onSendAnswer_of_failed cur answers judged next)
    exact ⟨fun failed => ends (judgeSend_of_failed failed),
      fun n count counted short => ends (reason := .shortWrite) (count ▸ judgeSend_of_short counted short),
      fun n count excess => ends (reason := .overCount) (count ▸ judgeSend_of_over excess)⟩
  case receive =>
    obtain ⟨next, h⟩ := exec_awaitRecv reply receiving
    have judged : judgeReceive n a = none := judgeReceive_of_failed (by cases n <;> exact failed)
    exact h.trans (State.onReceiveAnswer_of_failed cur answers judged next)

/-! ### Fatal statuses -/

/-- A bind succeeds exactly where both its parts do. -/
theorem bind_eq_ok {ε α β : Type} {x : Except ε α} {g : α → Except ε β} {b : β} :
    (x >>= g) = .ok b ↔ ∃ a, x = .ok a ∧ g a = .ok b := by
  cases x <;> simp [bind, Except.bind]

/-- The status of a long frame that decodes is its bytes 5 to 8 (R64). -/
theorem decodeLong_status {p : Params} {f : Bytes} {r : LongFields} (decoded : decodeLong p f = .ok r) :
    r.status = slice f 5 8 := by
  rw [decodeLong_eq] at decoded
  obtain ⟨-, -, -, fields⟩ := decodeFrame_eq_ok decoded
  obtain ⟨head, -, fields⟩ := bind_eq_ok.mp fields
  obtain ⟨d1, -, fields⟩ := bind_eq_ok.mp fields
  obtain ⟨d2, -, fields⟩ := bind_eq_ok.mp fields
  obtain ⟨d3, -, fields⟩ := bind_eq_ok.mp fields
  cases fields
  rfl

/-- Four status bytes are classified by those at 1 and 3 (R110). -/
theorem classifyStatus_of_positions {status : Bytes} {e : Byte} {err : StatusError} {bat : Battery}
    (four : status.length = 4) (error : status[1]? = some e) (known : errorPosition e = some err)
    (battery : batteryPosition (status.getD 3 0) = some bat) :
    classifyStatus status = .ok ⟨err, bat⟩ := by
  match status, four with
  | [x, e', y, b], _ =>
    obtain rfl : e' = e := Option.some.inj error
    exact classifyStatus_of_known (errorPosition_eq_some.mp known) (batteryPosition_eq_some.mp battery) x y

/-- A fatal status is reported before the head is checked (R140, R175, R176). -/
theorem judgeReading_of_fatal_status {p : Params} {c : OpContext} {b : Bytes} {r : LongFields}
    {cls : StatusClass} {e : Raised} (decoded : decodeLong p b = .ok r)
    (known : classifyStatus r.status = .ok cls) (fatal : recordStatus cls.err = .error e) :
    judgeReading p c b = .error e := by
  simp only [judgeReading, decoded, known, fatal]

/-- A reply judged to be a fatal error ends the session (R180). -/
theorem configureAndReadReply_of_fatal {s : State} {c : OpContext} {b : Bytes} {e : Raised}
    (judged : judgeReading s.params c b = .error e) (fatal : e.kind.fatal = true) :
    configureAndReadReply c b s = s.sessionLost.ended (.err e.kind (e.info c.index c.sentHead)) := by
  simp only [configureAndReadReply, judged, State.raise_eq_sessionLost fatal]

/-- A whole reply judged to be a fatal error is taken, and the session ends at once. -/
theorem exec_configureAndRead_of_fatal {heads : List Byte} {hold ccf : Bool} {range : Bytes} {s : State}
    {c : OpContext} {b : Bytes} {rest : List RecvAnswer} {e : Raised}
    (receiving : s.phase = .awaitRecv .long) (cur : s.cur = some c)
    (answers : s.recvAnswers = .bytes b :: rest) (whole : b.length = 32)
    (judged : judgeReading s.params c b = .error e) (fatal : e.kind.fatal = true) :
    exec (.configureAndRead heads hold ccf range) s =
      .next ((s.replyTaken b rest).sessionLost.ended (.err e.kind (e.info c.index c.sentHead))) := by
  rw [exec_configureAndRead_awaitRecv receiving,
    State.onReceiveAnswer_of_whole (n := .long) cur answers whole]
  exact congrArg _ (configureAndReadReply_of_fatal (s := s.replyTaken b rest) judged fatal)

/-- Settles O31: the three fatal values of the error position (R111) and the error each raises. -/
theorem fatalStatusEndsTheSession : Obligations.FatalStatusEndsTheSession := by
  intro heads hold ccf range s c b rest r bat receiving cur answers decoded battery
  have whole : b.length = 32 := decodeLong_length decoded
  have four : r.status.length = 4 := by rw [decodeLong_status decoded, length_slice (by omega)]
  have ends {code : Byte} {err : StatusError} {e : Raised} (known : errorPosition code = some err)
      (raises : recordStatus err = .error e) (fatal : e.kind.fatal = true)
      (error : r.status[1]? = some code) :=
    exec_configureAndRead_of_fatal (heads := heads) (hold := hold) (ccf := ccf) (range := range)
      receiving cur answers whole
      (judgeReading_of_fatal_status decoded (classifyStatus_of_positions four error known battery) raises)
      fatal
  exact ⟨ends (err := .powerHeadOff) rfl rfl rfl, ends (err := .eepromFault .one) rfl rfl rfl,
    ends (err := .eepromFault .two) rfl rfl rfl⟩

end Sys2Proof.Machine
end

section
/-! SUPPORT. The statements on 70_reset_and_hazards.md: the reset input (R201) and the waits that have no
answer yet (R206). -/

namespace Sys2Proof.Machine

/-! ### Reset -/

/-- A step with the reset input pulled takes the reset, whatever PHASE and CUR are (R201). -/
theorem step_of_reset {s : State} (input : s.resetInput = true) : step s = .next s.applyReset :=
  if_pos input

/-- What reset leaves of a state is the parameters, the queues and the TX stream (R200; log 5). -/
theorem State.applyReset_eq_reset_with (s : State) :
    s.applyReset = { State.reset with
      params := s.params, hostPort := s.hostPort, sendAnswers := s.sendAnswers,
      recvAnswers := s.recvAnswers, txStream := s.txStream } := rfl

/-- Settles O47: the reset input is looked at before PHASE, and reset writes every field of the engine. -/
theorem resetIsTakenInAnyPhase : Obligations.ResetIsTakenInAnyPhase := by
  intro s input
  rw [step_of_reset input, s.applyReset_eq_reset_with]

/-! ### Waits -/

/-- An idle engine with no request at its port waits (R54). -/
theorem step_of_no_request {s : State} (input : s.resetInput = false) (idle : s.phase = .idle)
    (port : s.hostPort = []) : step s = .next s := by
  have none_taken : s.takeRequest = none := by simp only [State.takeRequest, port]
  simp only [step, input, Bool.false_eq_true, if_false, idle, none_taken]

/-- Without the transport's count the end of a `Send` waits (R131, R206). -/
theorem State.onSendAnswer_of_no_answer {s : State} {c : OpContext} (cur : s.cur = some c)
    (answers : s.sendAnswers = []) (next : OpContext → State → State) :
    s.onSendAnswer next = .next s := by
  simp only [State.onSendAnswer, cur, answers]

/-- Without the transport's bytes the end of a `Receive(n)` waits (R132, R206). -/
theorem State.onReceiveAnswer_of_no_answer {s : State} {c : OpContext} (cur : s.cur = some c)
    (answers : s.recvAnswers = []) (n : ReplyKind) (next : OpContext → Bytes → State → State) :
    s.onReceiveAnswer n next = .next s := by
  simp only [State.onReceiveAnswer, cur, answers]

/-- An operation that expects a reply is a device operation (R72). -/
theorem isDevice_of_replyKindOf {i : Instr} {n : ReplyKind} (reply : replyKindOf i = some n) :
    isDevice i = true := by
  cases i with
  | enterRemote | configureAndRead | setHold => rfl
  | _ => cases reply

/-- Settles O46: in each wait, whichever operation is in CUR, nothing is read but the queue that is
empty. -/
theorem waitsWithoutAnAnswerChangeNothing : Obligations.WaitsWithoutAnAnswerChangeNothing := by
  refine fun s input => ⟨step_of_no_request input, fun c sending cur device answers => ?send,
    fun c n receiving cur reply answers => ?receive⟩
  case send =>
    obtain ⟨next, run⟩ := exec_awaitSend device sending
    rw [step_of_busy input (by simp [sending]) cur device, run]
    exact State.onSendAnswer_of_no_answer cur answers next
  case receive =>
    obtain ⟨next, run⟩ := exec_awaitRecv reply receiving
    rw [step_of_busy input (by simp [receiving]) cur (isDevice_of_replyKindOf reply), run]
    exact State.onReceiveAnswer_of_no_answer cur answers n next

end Sys2Proof.Machine
end
